-- ==== Sys2Proof/Word.lean ====
section
/-! DEFINITION. The word types of the MirroredRingBuffer controller: the widths of 00_scope R5. -/

namespace Sys2Proof

/-- A byte of storage or of payload: 8 bits (00_scope R5). -/
abbrev Byte := BitVec 8

/-- `IDX_W`: the width of the cursors, of `mirror_size`, of the span lengths and of every length operand (00_scope R5). -/
abbrev Index := BitVec 16

/-- `CMD_W`: a command word, format C32 (00_scope R5, 30_encoding R81). -/
abbrev CommandWord := BitVec 32

/-- `RSP_W`: a response word, format R64 (00_scope R5, 30_encoding R90). -/
abbrev ResponseWord := BitVec 64

end Sys2Proof
end

