-- ==== Sys2Proof/Syntax.lean ====
section
/-! DEFINITION. The twelve commands of command set MRB-1 (30_encoding R86), one constructor per row of spec/opcode_table.json. -/

namespace Sys2Proof

/-- One command with its operands assembled as 30_encoding R82 and R83 say. -/
inductive Instr where
  /-- INIT `mirror_size` (40_construction R110). -/
  | init (mirrorSize : Index)
  /-- PUSH `value`, the byte ARG[7:0] (41_byte_ops R121). -/
  | push (value : Byte)
  /-- POP (41_byte_ops R126). -/
  | pop
  /-- BULKW `len` with its payload `data` (42_bulk_write R136, 30_encoding R83). -/
  | bulkw (len : Index) (data : List Byte)
  /-- ALLOCW `max_len` (43_write_span R146). -/
  | allocw (maxLen : Index)
  /-- COMMITW `len` (43_write_span R150). -/
  | commitw (len : Index)
  /-- ALLOCR `max_len` (44_read_span R166). -/
  | allocr (maxLen : Index)
  /-- COMMITR `len` (44_read_span R170). -/
  | commitr (len : Index)
  /-- LENGTH (45_status_queries R181). -/
  | length
  /-- HASDATA (45_status_queries R183). -/
  | hasdata
  /-- GETERR (45_status_queries R185). -/
  | geterr
  /-- CLRERR (45_status_queries R187). -/
  | clrerr
deriving DecidableEq, Repr

end Sys2Proof
end

