-- ==== Sys2Proof/WellFormed.lean ====
section
/-! DEFINITION. Which terms of `Instr` are commands. The operand widths are in the types; the one relation left to check is
that a BULKW payload holds exactly `len` bytes (30_encoding R83, R84 step 4). -/

namespace Sys2Proof

/-- The command is one that a transaction can carry. -/
def Instr.wellFormed : Instr → Bool
  | .init _ => true
  | .push _ => true
  | .pop => true
  | .bulkw len data => data.length == len.toNat
  | .allocw _ => true
  | .commitw _ => true
  | .allocr _ => true
  | .commitr _ => true
  | .length => true
  | .hasdata => true
  | .geterr => true
  | .clrerr => true

end Sys2Proof
end

