-- ==== Sys2Proof/Decode.lean ====
section
/-! DEFINITION. Decoding a command transaction `(word, payload)` (30_encoding R80 to R88), total, refusing by name; and the
encoder written from the same table (R86). -/

namespace Sys2Proof

/-! ### The fields of format C32 (30_encoding R81) -/

/-- `OPC`, word[31:28]. -/
def commandOpc (word : CommandWord) : BitVec 4 := word.extractLsb' 28 4

/-- `RSV`, word[27:16]. -/
def commandRsv (word : CommandWord) : BitVec 12 := word.extractLsb' 16 12

/-- `ARG`, word[15:0]. -/
def commandArg (word : CommandWord) : Index := word.extractLsb' 0 16

/-- ARG[7:0], the operand of PUSH (30_encoding R82). -/
def argLow (arg : Index) : Byte := arg.extractLsb' 0 8

/-- ARG[15:8], which must be 0 in a PUSH (30_encoding R82). -/
def argHigh (arg : Index) : Byte := arg.extractLsb' 8 8

/-- Why a transaction is no command: the steps of the procedure of 30_encoding R84. All of them are answered with ILLEGAL_CMD. -/
inductive DecodeError where
  /-- Step (1): `RSV` is not 0. -/
  | reservedBits
  /-- Step (2): `OPC` is 0x0, 0xD, 0xE or 0xF. -/
  | unusedOpcode
  /-- Step (3): an operand where there is none, or ARG[15:8] of a PUSH not 0. -/
  | strayOperand
  /-- Step (4): the payload's length is not what the command asks for. -/
  | payloadLength
deriving DecidableEq, Repr

/-- Step (4) for every command but BULKW: the payload is empty (30_encoding R83). -/
def withoutPayload (payload : List Byte) (i : Instr) : Except DecodeError Instr :=
  if payload = [] then .ok i else .error .payloadLength

/-- Step (3) for a command without operand, then step (4) (30_encoding R84). -/
def withoutOperand (arg : Index) (payload : List Byte) (i : Instr) : Except DecodeError Instr :=
  if arg = 0 then withoutPayload payload i else .error .strayOperand

/-- Steps (2) to (5): the opcode map (30_encoding R86) once `RSV` is known to be 0. -/
def decodeOpcode (opc : BitVec 4) (arg : Index) (payload : List Byte) : Except DecodeError Instr :=
  match opc.toNat with
  | 0x1 => withoutPayload payload (.init arg)
  | 0x2 => if argHigh arg = 0 then withoutPayload payload (.push (argLow arg)) else .error .strayOperand
  | 0x3 => withoutOperand arg payload .pop
  | 0x4 => if payload.length = arg.toNat then .ok (.bulkw arg payload) else .error .payloadLength
  | 0x5 => withoutPayload payload (.allocw arg)
  | 0x6 => withoutPayload payload (.commitw arg)
  | 0x7 => withoutPayload payload (.allocr arg)
  | 0x8 => withoutPayload payload (.commitr arg)
  | 0x9 => withoutOperand arg payload .length
  | 0xA => withoutOperand arg payload .hasdata
  | 0xB => withoutOperand arg payload .geterr
  | 0xC => withoutOperand arg payload .clrerr
  | _ => .error .unusedOpcode

/-- Decode one transaction: the procedure of 30_encoding R84, total. -/
def decode (word : CommandWord) (payload : List Byte) : Except DecodeError Instr :=
  if commandRsv word = 0 then decodeOpcode (commandOpc word) (commandArg word) payload else .error .reservedBits

/-! ### The encoder -/

/-- A C32 word with `RSV` 0 (30_encoding R81). -/
def commandWord (opc : BitVec 4) (arg : Index) : CommandWord :=
  (opc.setWidth 32 <<< 28) ||| arg.setWidth 32

/-- `OPC` of each command (30_encoding R86). -/
def Instr.opcode : Instr → BitVec 4
  | .init _ => 0x1
  | .push _ => 0x2
  | .pop => 0x3
  | .bulkw _ _ => 0x4
  | .allocw _ => 0x5
  | .commitw _ => 0x6
  | .allocr _ => 0x7
  | .commitr _ => 0x8
  | .length => 0x9
  | .hasdata => 0xA
  | .geterr => 0xB
  | .clrerr => 0xC

/-- `ARG` of each command (30_encoding R82). -/
def Instr.argument : Instr → Index
  | .init mirrorSize => mirrorSize
  | .push value => value.setWidth 16
  | .pop => 0
  | .bulkw len _ => len
  | .allocw maxLen => maxLen
  | .commitw len => len
  | .allocr maxLen => maxLen
  | .commitr len => len
  | .length => 0
  | .hasdata => 0
  | .geterr => 0
  | .clrerr => 0

/-- The payload of each command (30_encoding R83). -/
def Instr.payload : Instr → List Byte
  | .init _ => []
  | .push _ => []
  | .pop => []
  | .bulkw _ data => data
  | .allocw _ => []
  | .commitw _ => []
  | .allocr _ => []
  | .commitr _ => []
  | .length => []
  | .hasdata => []
  | .geterr => []
  | .clrerr => []

/-- The transaction that stands for a command: the word of 30_encoding R86 and the payload of R83. -/
def encode (i : Instr) : CommandWord × List Byte := (commandWord i.opcode i.argument, i.payload)

/-! ### The opcode map as masks (30_encoding R86) -/

/-- The `mask` column of R86: which bits of the word the command fixes. -/
def Instr.mask : Instr → CommandWord
  | .init _ => 0xFFFF0000
  | .push _ => 0xFFFFFF00
  | .pop => 0xFFFFFFFF
  | .bulkw _ _ => 0xFFFF0000
  | .allocw _ => 0xFFFF0000
  | .commitw _ => 0xFFFF0000
  | .allocr _ => 0xFFFF0000
  | .commitr _ => 0xFFFF0000
  | .length => 0xFFFFFFFF
  | .hasdata => 0xFFFFFFFF
  | .geterr => 0xFFFFFFFF
  | .clrerr => 0xFFFFFFFF

/-- The `match` column of R86: the value of those bits. -/
def Instr.matchBits : Instr → CommandWord
  | .init _ => 0x10000000
  | .push _ => 0x20000000
  | .pop => 0x30000000
  | .bulkw _ _ => 0x40000000
  | .allocw _ => 0x50000000
  | .commitw _ => 0x60000000
  | .allocr _ => 0x70000000
  | .commitr _ => 0x80000000
  | .length => 0x90000000
  | .hasdata => 0xA0000000
  | .geterr => 0xB0000000
  | .clrerr => 0xC0000000

/-! ### Words of spec/opcode_table.json -/

/-- The transaction that lies in the low `nbits` bits of the number `w`, every higher bit 0: the word is bits 31..0, and
the payload of a BULKW, `ARG` bytes, counts on from bit 32, first byte lowest (DESIGN CHOICE, log entry 7). -/
def tableTransaction (nbits w : Nat) : CommandWord × List Byte :=
  let v := w % 2 ^ nbits
  let word : CommandWord := BitVec.ofNat 32 v
  let payload := if commandOpc word = 0x4 then
      (List.range (commandArg word).toNat).map fun j => (BitVec.ofNat 8 (v >>> (32 + 8 * j)) : Byte)
    else []
  (word, payload)

/-- What the decoder reads from an instruction whose bits are `w`. -/
def decodeTableWord (nbits w : Nat) : Option Instr :=
  (decode (tableTransaction nbits w).1 (tableTransaction nbits w).2).toOption

end Sys2Proof
end

