-- ==== Sys2Proof/Config.lean ====
section
/-! DEFINITION. What an instance fixes and the spec leaves open: the two free inputs of 93_implementation_defined section 3
that are values. Neither has a body, so no proof can see which value it is. -/

namespace Sys2Proof.Config

/-- `TOTAL_SIZE`, the number of bytes of the attached storage: a natural number in [0, 65535], the spec's one open parameter
(00_scope R5, 92 D3, 93 U11). `State.reset` carries it; DESIGN CHOICE, log entry 4. -/
opaque totalSize : Index

/-- The byte that storage index `i` holds at power-up: unspecified, any value, fixed once (10_state R40, 93 U3); DESIGN CHOICE, log entry 5. -/
opaque powerUpByte : Nat → Byte

end Sys2Proof.Config
end

