-- ==== Sys2Proof/Machine/State.lean ====
section
/-! DEFINITION. The state of the block (10_state R20), plain data, with the environment's chosen steps and the outputs of a
run beside it (20_memory R64, 70_reset R247), and the state after power-up reset (10_state R40, 70_reset R227). -/

namespace Sys2Proof.Machine

/-- The values of `err` and of the response's FAULT and ERR fields: None, Overflow, Underflow; the code 3 never occurs
(10_state R25, 60_exceptions R196, 93 U10; DEDUCED, log entry 8). -/
inductive ErrorCode where
  | none
  | overflow
  | underflow
deriving DecidableEq, Repr

/-- How a command ended (30_encoding R91). Codes 4 to 15 are never produced (93 U10). -/
inductive Status where
  /-- 0: the command was executed by its rule. -/
  | ok
  /-- 1: INIT with an illegal `mirror_size`. -/
  | configError
  /-- 2: the span protocol or the lifecycle forbids the command. -/
  | usageError
  /-- 3: the transaction decodes to no command. -/
  | illegalCmd
deriving DecidableEq, Repr

/-- One step the environment may choose (20_memory R64, 00_scope R12). -/
inductive Request where
  /-- A command transaction at the command port (30_encoding R80). -/
  | command (word : CommandWord) (payload : List Byte)
  /-- `SPAN_WR(p, b)` of the external write agent (20_memory R58). -/
  | spanWr (p : Index) (b : Byte)
  /-- `SPAN_RD(p)` of the external read agent (20_memory R58). -/
  | spanRd (p : Index)
  /-- The reset input (70_reset R225). -/
  | reset
deriving DecidableEq, Repr

/-- What the span port answers to one request (20_memory R60 to R62). -/
inductive SpanReply where
  /-- A `SPAN_WR` was accepted. -/
  | written
  /-- A `SPAN_RD` was accepted and returned this byte. -/
  | data (b : Byte)
  /-- The request was rejected: no data, no effect (R62). -/
  | rejected
deriving DecidableEq, Repr

/-- Why the model stops. The block itself never stops (60_exceptions R195, 70_reset R246). -/
inductive Fault where
  /-- A storage access at an index outside [0, TOTAL_SIZE), which the spec says does not exist (20_memory R50). Raised by the
  byte accesses `memRead` and `memWrite`; SAFE: no state within 10_state R31 raises it (DEDUCED, log entry 6). -/
  | storageIndex (i : Nat)
deriving DecidableEq, Repr

/-- Why the model gives an instruction no meaning. -/
inductive Refusal where
  /-- The instruction of this mnemonic is not modelled yet: raised by an arm of `exec` only; SAFE. No arm raises it now. -/
  | notModelled (mnemonic : String)
deriving DecidableEq, Repr

/-- The storage as the bytes that differ from the power-up content, in one canonical form (`Memory.wf` in Machine/Ops.lean). -/
abbrev Memory := List Host.Cell

/-- The complete state. `storage` to `rsLen` are the spec's own (10_state R20); the other fields are the model's. -/
structure State where
  /-- `TOTAL_SIZE`, the instance's parameter; no step writes it (00_scope R5; DESIGN CHOICE, log entry 4). -/
  totalSize : Index
  /-- The leading bytes of the power-up content that a run fixes; a later index holds `Config.powerUpByte`; no step writes it
  (93 U3; DESIGN CHOICE, log entry 5). -/
  powerUpFixed : List Byte
  /-- `storage`: the cells that no longer hold their power-up byte (20_memory R50). -/
  storage : Memory
  /-- `configured`: 0 UNCONFIGURED, 1 READY (10_state R21). -/
  configured : Bool
  /-- `mirror_size`, short `m` (10_state R22). -/
  mirrorSize : Index
  /-- `write_index`, short `w` (10_state R23). -/
  writeIndex : Index
  /-- `read_index`, short `r` (10_state R23). -/
  readIndex : Index
  /-- `error`, short `err`, the sticky flag (10_state R25). -/
  err : ErrorCode
  /-- `ws_open`: a write span is outstanding (10_state R34). -/
  wsOpen : Bool
  /-- `ws_len`: its granted length (10_state R34). -/
  wsLen : Index
  /-- `rs_open`: a read span is outstanding (10_state R34). -/
  rsOpen : Bool
  /-- `rs_len`: its granted length (10_state R34). -/
  rsLen : Index
  /-- The steps the environment has chosen and the block has not taken, next one first (20_memory R64; DESIGN CHOICE, log entry 1). -/
  requests : List Request
  /-- The response words emitted so far, oldest first (30_encoding R80, 70_reset R247; DESIGN CHOICE, log entry 3). -/
  responses : List ResponseWord
  /-- The answers of the span port so far, oldest first (20_memory R60 to R62, 70_reset R247; DESIGN CHOICE, log entry 3). -/
  spanReplies : List SpanReply
deriving DecidableEq, Repr

/-- Power-up reset: every register 0, the storage as it was at power-up (10_state R40, 70_reset R227). The environment has
chosen no step yet and nothing has been emitted. -/
def State.reset : State where
  totalSize := Config.totalSize
  powerUpFixed := []
  storage := []
  configured := false
  mirrorSize := 0
  writeIndex := 0
  readIndex := 0
  err := .none
  wsOpen := false
  wsLen := 0
  rsOpen := false
  rsLen := 0
  requests := []
  responses := []
  spanReplies := []

end Sys2Proof.Machine
end

