-- ==== Sys2Proof/Machine/Pointer.lean ====
section
/-! DEFINITION. The pointer wrap-around engine: the derived constants of 00_scope R6 and the pure functions of 10_state R26 to
R30, over the natural numbers (00_scope R7). They mean something only while the block is configured. -/

namespace Sys2Proof.Machine

/-! ### The registers as natural numbers -/

/-- `TOTAL_SIZE`. -/
def State.total (s : State) : Nat := s.totalSize.toNat

/-- `m`. -/
def State.m (s : State) : Nat := s.mirrorSize.toNat

/-- `w`. -/
def State.w (s : State) : Nat := s.writeIndex.toNat

/-- `r`. -/
def State.r (s : State) : Nat := s.readIndex.toNat

/-! ### The derived constants (00_scope R6) -/

/-- `capacity = TOTAL_SIZE - mirror_size`. -/
def State.cap (s : State) : Nat := s.total - s.m

/-- `begin_limit = mirror_size - 1`. -/
def State.bl (s : State) : Nat := s.m - 1

/-- `last_limit = capacity - 1`. -/
def State.ll (s : State) : Nat := s.cap - 1

/-! ### The engine, in terms of the capacity -/

/-- `next(i)`: 0 after the last index, else the successor (10_state R26). -/
def nextIndex (cap i : Nat) : Nat := if i = cap - 1 then 0 else i + 1

/-- `dist(r, w)`: the number of live bytes (10_state R27). -/
def distIndex (cap r w : Nat) : Nat := if r ≤ w then w - r else w + cap - r

/-- `free(r, w) = cap - 1 - dist(r, w)` (10_state R28). -/
def freeSpace (cap r w : Nat) : Nat := cap - 1 - distIndex cap r w

/-- `adv(i, n)`: `n` places further, less `cap` past the last index (10_state R29). -/
def advIndex (cap i n : Nat) : Nat := if i + n ≤ cap - 1 then i + n else i + n - cap

/-! ### The engine on a state -/

/-- `dist(r, w)` of this state. -/
def State.dist (s : State) : Nat := distIndex s.cap s.r s.w

/-- `free(r, w)` of this state. -/
def State.free (s : State) : Nat := freeSpace s.cap s.r s.w

/-- A storage index or a length as a register holds it, 16 bits (00_scope R5). Within 10_state R31 nothing is cut off
(DEDUCED, log entry 9). -/
def toIndex (n : Nat) : Index := BitVec.ofNat 16 n

end Sys2Proof.Machine
end

