-- ==== Sys2Proof/Machine/Operands.lean ====
section
/-! DEFINITION. The operand and addressing forms: how a byte becomes a result field, the grant of a span with its cap at the
wrap (43_write_span R146, 44_read_span R166), and the physical windows of the outstanding spans (20_memory R60, R61). -/

namespace Sys2Proof.Machine

/-- `zext_16` of a byte, for the VAL field (30_encoding R93). -/
def zextByte (b : Byte) : Index := b.setWidth 16

/-- The mirrored addressing form: the mirror cell of head index `i` (20_memory R70). -/
def State.mirrorOf (s : State) (i : Nat) : Nat := i + s.cap

/-- `i` lies in the head `[0, bl]`, whose bytes are mirrored (20_memory R51). -/
def State.inHead (s : State) (i : Nat) : Bool := i ≤ s.bl

/-- The granted length of a span that starts at cursor `base` and could be `avail` bytes long: `g0 = min(max_len, avail)`, cut
to `m` when it would reach into the mirror region, that is when `base + g0 > cap` (43_write_span R146, 92 D13, D14). -/
def grantLength (cap m base maxLen avail : Nat) : Nat :=
  let g0 := min maxLen avail
  if base + g0 > cap then min g0 m else g0

/-- What ALLOCW grants in this state (43_write_span R146). -/
def State.writeGrant (s : State) (maxLen : Index) : Nat := grantLength s.cap s.m s.w maxLen.toNat s.free

/-- What ALLOCR grants in this state (44_read_span R166). -/
def State.readGrant (s : State) (maxLen : Index) : Nat := grantLength s.cap s.m s.r maxLen.toNat s.dist

/-- `p` lies in the outstanding write span `[w, w + ws_len)` of a configured block (20_memory R61). -/
def State.inWriteSpan (s : State) (p : Nat) : Bool :=
  s.configured && s.wsOpen && decide (s.w ≤ p) && decide (p < s.w + s.wsLen.toNat)

/-- `p` lies in the outstanding read span `[r, r + rs_len)` of a configured block (20_memory R60). -/
def State.inReadSpan (s : State) (p : Nat) : Bool :=
  s.configured && s.rsOpen && decide (s.r ≤ p) && decide (p < s.r + s.rsLen.toNat)

end Sys2Proof.Machine
end

