-- ==== Sys2Proof/Machine/Flags.lean ====
section
/-! DEFINITION. The fault conditions of 60_exceptions R196, the codes of `err` and of STATUS, and the packing of a response
word (30_encoding R90, R91). -/

namespace Sys2Proof.Machine

/-- None = 0, Overflow = 1, Underflow = 2 (10_state R25). -/
def ErrorCode.code : ErrorCode → BitVec 2
  | .none => 0
  | .overflow => 1
  | .underflow => 2

/-- The STATUS codes (30_encoding R91). -/
def Status.code : Status → BitVec 4
  | .ok => 0
  | .configError => 1
  | .usageError => 2
  | .illegalCmd => 3

/-- A response word of format R64: STATUS[63:60], FAULT[59:58], ERR[57:56], zero, PTR[31:16], VAL[15:0] (30_encoding R90). -/
def packResponse (status : Status) (fault err : ErrorCode) (ptr val : Index) : ResponseWord :=
  (status.code.setWidth 64 <<< 60) ||| (fault.code.setWidth 64 <<< 58) ||| (err.code.setWidth 64 <<< 56) |||
    (ptr.setWidth 64 <<< 16) ||| val.setWidth 64

/-- PUSH overflows: `next(w) = r`, the buffer is full (60_exceptions R196). -/
def State.pushOverflows (s : State) : Bool := nextIndex s.cap s.w == s.r

/-- BULKW overflows: `len > free(r, w)` (60_exceptions R196). -/
def State.bulkOverflows (s : State) (len : Index) : Bool := decide (len.toNat > s.free)

/-- ALLOCW overflows: the granted length is 0 (60_exceptions R196, 43_write_span R147). -/
def State.allocOverflows (s : State) (maxLen : Index) : Bool := s.writeGrant maxLen == 0

/-- POP and ALLOCR underflow: `r = w`, the buffer is empty (60_exceptions R196). -/
def State.isEmpty (s : State) : Bool := s.r == s.w

/-- INIT's operand is illegal: `m0 = 0` or `2*m0 > TOTAL_SIZE` (40_construction R111). -/
def State.badMirrorSize (s : State) (m0 : Index) : Bool := m0 == 0 || decide (2 * m0.toNat > s.total)

end Sys2Proof.Machine
end

