-- ==== Sys2Proof/Machine/Ops.lean ====
section
/-! DEFINITION. The shared operations: the storage in its canonical form and its byte accesses (20_memory R50 to R56), the
loops of BULKW and COMMITW (00_scope R10), and the three ways a command ends: `fault F` (60_exceptions R197), `refuse S`
(R200) and `respond` (30_encoding R90). Nothing traps (60_exceptions R195, R205): `raiseFault` and `refuse` are all that the
block has in the place of an exception entry, and there is no return from one (R208). -/

namespace Sys2Proof.Machine

/-! ### The storage as data -/

/-- The listed byte at `a`, if there is one. -/
def Memory.lookup : Memory → Nat → Option Byte
  | [], _ => Option.none
  | (k, b) :: rest, a => if k = a then some b else Memory.lookup rest a

/-- The byte at `a`: the listed one, else what an unlisted address reads as. -/
def Memory.read (base : Nat → Byte) (mem : Memory) (a : Nat) : Byte := (Memory.lookup mem a).getD (base a)

/-- Unlist `a`. -/
def Memory.erase (mem : Memory) (a : Nat) : Memory := mem.filter fun c => c.1 != a

/-- List `(a, b)` at its place in the rising order. -/
def Memory.insert : Memory → Nat → Byte → Memory
  | [], a, b => [(a, b)]
  | (k, c) :: rest, a, b =>
    if a < k then (a, b) :: (k, c) :: rest
    else if a = k then (a, b) :: rest
    else (k, c) :: Memory.insert rest a b

/-- Write `b` at `a`: writing what an unlisted address reads as removes the entry. -/
def Memory.write (base : Nat → Byte) (mem : Memory) (a : Nat) (b : Byte) : Memory :=
  if b = base a then Memory.erase mem a else Memory.insert mem a b

/-- Addresses strictly rising. -/
def Memory.rising : Memory → Bool
  | [] => true
  | c :: rest => (rest.all fun d => decide (c.1 < d.1)) && Memory.rising rest

/-- The canonical form: addresses strictly rising, and no entry equal to what an unlisted address reads as. -/
def Memory.wf (base : Nat → Byte) (mem : Memory) : Bool :=
  Memory.rising mem && mem.all fun c => c.2 != base c.1

/-! ### Byte accesses (20_memory R54) -/

/-- What an unlisted address reads as: the power-up byte, fixed by the run or free (10_state R40, 93 U3; DESIGN CHOICE, log entry 5). -/
def State.powerUpByte (s : State) (i : Nat) : Byte := s.powerUpFixed.getD i (Config.powerUpByte i)

/-- `storage[i]`: the byte most recently written there, or the power-up byte (20_memory R56, R65). -/
def State.byteAt (s : State) (i : Nat) : Byte := Memory.read s.powerUpByte s.storage i

/-- `storage[i] <- b`, that cell only (20_memory R56). -/
def State.setByte (s : State) (i : Nat) (b : Byte) : State :=
  { s with storage := Memory.write s.powerUpByte s.storage i b }

/-- `MemRead(i, 1)` (00_scope R9). An index outside the storage does not exist (20_memory R50; DEDUCED, log entry 6). -/
def memRead (s : State) (i : Nat) : Except Fault Byte :=
  if i < s.total then .ok (s.byteAt i) else .error (.storageIndex i)

/-- `MemWrite(i, 1, b)` (00_scope R9). An index outside the storage does not exist (20_memory R50; DEDUCED, log entry 6). -/
def memWrite (s : State) (i : Nat) (b : Byte) : Except Fault State :=
  if i < s.total then .ok (s.setByte i b) else .error (.storageIndex i)

/-- Store `b` at real index `i` and, for a head index, at its mirror cell too (41_byte_ops R121 steps (1) and (2),
42_bulk_write R136). -/
def storeMirrored (s : State) (i : Nat) (b : Byte) : Except Fault State :=
  match memWrite s i b with
  | .error e => .error e
  | .ok s1 => if s.inHead i then memWrite s1 (s.mirrorOf i) b else .ok s1

/-- The loop of BULKW: byte `j` and the ones after it, byte `j` at `adv(base, j)` (42_bulk_write R136). -/
def storeRun (base : Nat) : List Byte → Nat → State → Except Fault State
  | [], _, s => .ok s
  | b :: rest, j, s =>
    match storeMirrored s (advIndex s.cap base j) b with
    | .error e => .error e
    | .ok s1 => storeRun base rest (j + 1) s1

/-- A copy loop of COMMITW: `n` bytes from `src` up to `dst` up, in ascending order (43_write_span R150). -/
def copyRun : Nat → Nat → Nat → State → Except Fault State
  | _, _, 0, s => .ok s
  | src, dst, n + 1, s =>
    match memRead s src with
    | .error e => .error e
    | .ok b =>
      match memWrite s dst b with
      | .error e => .error e
      | .ok s1 => copyRun (src + 1) (dst + 1) n s1

/-! ### Register updates -/

/-- `w <- n`. -/
def State.setWrite (s : State) (n : Nat) : State := { s with writeIndex := toIndex n }

/-- `r <- n`. -/
def State.setRead (s : State) (n : Nat) : State := { s with readIndex := toIndex n }

/-- `ws_open <- 1 ; ws_len <- g` (43_write_span R148). -/
def State.openWrite (s : State) (g : Nat) : State := { s with wsOpen := true, wsLen := toIndex g }

/-- `ws_open <- 0 ; ws_len <- 0` (43_write_span R150). -/
def State.closeWrite (s : State) : State := { s with wsOpen := false, wsLen := 0 }

/-- `rs_open <- 1 ; rs_len <- g` (44_read_span R168). -/
def State.openRead (s : State) (g : Nat) : State := { s with rsOpen := true, rsLen := toIndex g }

/-- `rs_open <- 0 ; rs_len <- 0` (44_read_span R170). -/
def State.closeRead (s : State) : State := { s with rsOpen := false, rsLen := 0 }

/-! ### How a command ends -/

/-- Emit one response word (30_encoding R80). -/
def State.emit (s : State) (word : ResponseWord) : State := { s with responses := s.responses ++ [word] }

/-- Answer one span-port request (20_memory R60 to R62). -/
def State.reply (s : State) (answer : SpanReply) : State := { s with spanReplies := s.spanReplies ++ [answer] }

/-- The register part of `fault F`: `err <- F`, whatever it held (60_exceptions R197, 10_state R25). -/
def State.raiseFault (s : State) (f : ErrorCode) : State := { s with err := f }

/-- `respond(PTR = ptr, VAL = val)` of a command that raised no fault: STATUS OK, ERR the value of `err` after the command
(30_encoding R90). -/
def respond (s : State) (ptr val : Index) : State := s.emit (packResponse .ok .none s.err ptr val)

/-- `fault F`, then `respond(PTR = ptr, VAL = val)`: `err <- F`, and FAULT = ERR = F in the response (60_exceptions R197,
30_encoding R92). -/
def faultRespond (f : ErrorCode) (s : State) (ptr val : Index) : State :=
  (s.raiseFault f).emit (packResponse .ok f f ptr val)

/-- `refuse S`: the response word alone, ERR the unchanged `err`, every other field 0; nothing else changes
(60_exceptions R200). -/
def refuse (st : Status) (s : State) : State := s.emit (packResponse st .none s.err 0 0)

/-- Run `body` unless the block is UNCONFIGURED, which refuses USAGE_ERROR (60_exceptions R201, R207 step 2). -/
def requireConfigured (s : State) (body : Host.Outcome State Fault Refusal) : Host.Outcome State Fault Refusal :=
  if s.configured then body else .next (refuse .usageError s)

/-- Run `body` unless `busy`, the command's span condition of 60_exceptions R202, which refuses USAGE_ERROR (R207 step 4). -/
def refuseWhen (busy : Bool) (s : State) (body : Host.Outcome State Fault Refusal) : Host.Outcome State Fault Refusal :=
  if busy then .next (refuse .usageError s) else body

end Sys2Proof.Machine
end

