-- ==== Sys2Proof/Machine/BulkWrite.lean ====
section
/-! DEFINITION. BULKW (42_bulk_write R136 to R138). -/

namespace Sys2Proof.Machine

/-- `bytes_written = min(len, free(r, w))` (42_bulk_write R136). -/
def State.bulkCount (s : State) (len : Index) : Nat := min len.toNat s.free

/-- BULKW's last steps, after `n` bytes are stored: advance `w` by `n`, raise Overflow if not all of them fitted
(42_bulk_write R136). -/
def bulkAdvance (full : Bool) (n : Nat) (s : State) : State :=
  let s1 := s.setWrite (advIndex s.cap s.w n)
  if full then faultRespond .overflow s1 0 (toIndex n) else respond s1 0 (toIndex n)

/-- BULKW `len`, `data` (42_bulk_write R136): the leading `min(len, free)` bytes, the rest of the payload dropped. -/
def execBulkw (len : Index) (data : List Byte) (s : State) : Host.Outcome State Fault Refusal :=
  requireConfigured s <| refuseWhen s.wsOpen s <|
    match storeRun s.w (data.take (s.bulkCount len)) 0 s with
    | .error e => .fault e
    | .ok s1 => .next (bulkAdvance (s.bulkOverflows len) (s.bulkCount len) s1)

end Sys2Proof.Machine
end

