-- ==== Sys2Proof/Machine/ByteOps.lean ====
section
/-! DEFINITION. PUSH and POP (41_byte_ops R121 to R127). -/

namespace Sys2Proof.Machine

/-- PUSH's last steps, after the byte is stored: advance, or reject the advance and raise Overflow (41_byte_ops R121 steps (3)
and (4)). `full` is the fault condition on the state before the command. -/
def pushAdvance (full : Bool) (s : State) : State :=
  if full then faultRespond .overflow s 0 0 else respond (s.setWrite (nextIndex s.cap s.w)) 0 0

/-- PUSH `value` (41_byte_ops R121): the byte is stored, mirrored in the head, also when the buffer is full. -/
def execPush (v : Byte) (s : State) : Host.Outcome State Fault Refusal :=
  requireConfigured s <| refuseWhen s.wsOpen s <|
    match storeMirrored s s.w v with
    | .error e => .fault e
    | .ok s1 => .next (pushAdvance s.pushOverflows s1)

/-- POP's result once the byte `b = storage[r]` is read (41_byte_ops R126). -/
def popResult (b : Byte) (s : State) : State :=
  if s.isEmpty then faultRespond .underflow s 0 (zextByte b)
  else respond (s.setRead (nextIndex s.cap s.r)) 0 (zextByte b)

/-- POP (41_byte_ops R126): the byte at `r`, stale when the buffer is empty (R127). -/
def execPop (s : State) : Host.Outcome State Fault Refusal :=
  requireConfigured s <| refuseWhen s.rsOpen s <|
    match memRead s s.r with
    | .error e => .fault e
    | .ok b => .next (popResult b s)

end Sys2Proof.Machine
end

