-- ==== Sys2Proof/Machine/Construction.lean ====
section
/-! DEFINITION. INIT (40_construction R110 to R113). -/

namespace Sys2Proof.Machine

/-- The registers after a successful INIT(`m0`); the storage is not touched (40_construction R110, 10_state R40). -/
def State.construct (s : State) (m0 : Index) : State :=
  { s with
    mirrorSize := m0
    writeIndex := 0
    readIndex := 0
    err := .none
    wsOpen := false
    wsLen := 0
    rsOpen := false
    rsLen := 0
    configured := true }

/-- The state after INIT(`m0`), by the order of checks of 60_exceptions R207: lifecycle, operand, execution. -/
def initResult (m0 : Index) (s : State) : State :=
  if s.configured then refuse .usageError s
  else if s.badMirrorSize m0 then refuse .configError s
  else respond (s.construct m0) 0 0

/-- INIT `mirror_size` (40_construction R110 to R112). -/
def execInit (m0 : Index) (s : State) : Host.Outcome State Fault Refusal := .next (initResult m0 s)

end Sys2Proof.Machine
end

