-- ==== Sys2Proof/Machine/ReadSpan.lean ====
section
/-! DEFINITION. ALLOCR and COMMITR (44_read_span R166 to R173). -/

namespace Sys2Proof.Machine

/-- ALLOCR's span register update: a zero grant opens nothing (44_read_span R168). -/
def State.grantRead (s : State) (g : Nat) : State := if g = 0 then s else s.openRead g

/-- ALLOCR's grant: an empty buffer raises Underflow, a zero grant on data raises nothing; PTR is `r` in all cases
(44_read_span R166, R167). -/
def allocrResult (maxLen : Index) (s : State) : State :=
  let g := s.readGrant maxLen
  if s.isEmpty then faultRespond .underflow (s.grantRead g) s.readIndex (toIndex g)
  else respond (s.grantRead g) s.readIndex (toIndex g)

/-- ALLOCR `max_len` (44_read_span R166). -/
def execAllocr (maxLen : Index) (s : State) : Host.Outcome State Fault Refusal :=
  requireConfigured s <| refuseWhen s.rsOpen s <| .next (allocrResult maxLen s)

/-- Where COMMITR leaves `r`: `x = r + len`, less `cap` if it exceeds `ll` (44_read_span R170). -/
def State.releasedTo (s : State) (len : Nat) : Nat :=
  if s.r + len > s.ll then s.r + len - s.cap else s.r + len

/-- COMMITR `len` (44_read_span R170, R171). -/
def execCommitr (len : Index) (s : State) : Host.Outcome State Fault Refusal :=
  requireConfigured s <| refuseWhen (!s.rsOpen) s <| refuseWhen (decide (len.toNat > s.rsLen.toNat)) s <|
    .next (respond ((s.setRead (s.releasedTo len.toNat)).closeRead) 0 0)

end Sys2Proof.Machine
end

