-- ==== Sys2Proof/Machine/StatusQueries.lean ====
section
/-! DEFINITION. LENGTH, HASDATA, GETERR and CLRERR (45_status_queries R181 to R189). -/

namespace Sys2Proof.Machine

/-- LENGTH: VAL is `dist(r, w)` (45_status_queries R181). -/
def execLength (s : State) : Host.Outcome State Fault Refusal :=
  requireConfigured s <| .next (respond s 0 (toIndex s.dist))

/-- HASDATA: VAL is 1 if `r != w`, else 0 (45_status_queries R183). -/
def execHasdata (s : State) : Host.Outcome State Fault Refusal :=
  requireConfigured s <| .next (respond s 0 (if s.isEmpty then 0 else 1))

/-- GETERR: VAL is `zext_16(err)`, and nothing is cleared (45_status_queries R185). -/
def execGeterr (s : State) : Host.Outcome State Fault Refusal :=
  requireConfigured s <| .next (respond s 0 (s.err.code.setWidth 16))

/-- CLRERR: `err <- None` (45_status_queries R187). -/
def execClrerr (s : State) : Host.Outcome State Fault Refusal :=
  requireConfigured s <| .next (respond (s.raiseFault .none) 0 0)

end Sys2Proof.Machine
end

