-- ==== Sys2Proof/Machine/WriteSpan.lean ====
section
/-! DEFINITION. ALLOCW and COMMITW (43_write_span R146 to R153). -/

namespace Sys2Proof.Machine

/-- ALLOCW's grant: a zero grant raises Overflow and opens nothing, any other opens the span; PTR is `w` in both
(43_write_span R146 to R148). -/
def allocwResult (maxLen : Index) (s : State) : State :=
  if s.allocOverflows maxLen then faultRespond .overflow s s.writeIndex 0
  else respond (s.openWrite (s.writeGrant maxLen)) s.writeIndex (toIndex (s.writeGrant maxLen))

/-- ALLOCW `max_len` (43_write_span R146). -/
def execAllocw (maxLen : Index) (s : State) : Host.Outcome State Fault Refusal :=
  requireConfigured s <| refuseWhen s.wsOpen s <| .next (allocwResult maxLen s)

/-- How many head bytes step (1) of COMMITW mirrors: the indices `[w, min(end, bl + 1))`, none unless `w <= bl`
(43_write_span R150, half-open by 00_scope R10). -/
def State.headCommitted (s : State) (len : Nat) : Nat :=
  if s.w ≤ s.bl then min (s.w + len) (s.bl + 1) - s.w else 0

/-- How many bytes spilled into the mirror region: `k = end - cap` if `end > ll`, else none (43_write_span R150). -/
def State.spilled (s : State) (len : Nat) : Nat := if s.w + len > s.ll then s.w + len - s.cap else 0

/-- Where COMMITW leaves `w`: `end`, remapped to `end - cap` if `end > ll` (43_write_span R150). -/
def State.committedEnd (s : State) (len : Nat) : Nat :=
  if s.w + len > s.ll then s.w + len - s.cap else s.w + len

/-- The storage accesses of COMMITW: step (1) mirrors the head bytes just written, step (2) relocates the spilled bytes to
the head (43_write_span R150). -/
def commitCopies (len : Nat) (s : State) : Except Fault State :=
  match copyRun s.w (s.cap + s.w) (s.headCommitted len) s with
  | .error e => .error e
  | .ok s1 => copyRun s.cap 0 (s.spilled len) s1

/-- COMMITW's step (3): move `w` and close the span (43_write_span R150). -/
def commitwResult (len : Nat) (s : State) : State :=
  respond ((s.setWrite (s.committedEnd len)).closeWrite) 0 0

/-- COMMITW `len` (43_write_span R150, R152). -/
def execCommitw (len : Index) (s : State) : Host.Outcome State Fault Refusal :=
  requireConfigured s <| refuseWhen (!s.wsOpen) s <| refuseWhen (decide (len.toNat > s.wsLen.toNat)) s <|
    match commitCopies len.toNat s with
    | .error e => .fault e
    | .ok s1 => .next (commitwResult len.toNat s1)

end Sys2Proof.Machine
end

