-- ==== Sys2Proof/Machine/Dispatch.lean ====
section
/-! DEFINITION. One arm per command: the meaning of each (30_encoding R86). -/

namespace Sys2Proof.Machine

/-- Execute one command as one atomic transition (20_memory R64). -/
def exec (i : Instr) (s : State) : Host.Outcome State Fault Refusal :=
  match i with
  | .init mirrorSize => Sys2Proof.Machine.execInit mirrorSize s
  | .push value => Sys2Proof.Machine.execPush value s
  | .pop => Sys2Proof.Machine.execPop s
  | .bulkw len data => Sys2Proof.Machine.execBulkw len data s
  | .allocw maxLen => Sys2Proof.Machine.execAllocw maxLen s
  | .commitw len => Sys2Proof.Machine.execCommitw len s
  | .allocr maxLen => Sys2Proof.Machine.execAllocr maxLen s
  | .commitr len => Sys2Proof.Machine.execCommitr len s
  | .length => Sys2Proof.Machine.execLength s
  | .hasdata => Sys2Proof.Machine.execHasdata s
  | .geterr => Sys2Proof.Machine.execGeterr s
  | .clrerr => Sys2Proof.Machine.execClrerr s

end Sys2Proof.Machine
end

