-- ==== Sys2Proof/Machine/Reset.lean ====
section
/-! DEFINITION. The reset input (70_reset_and_hazards R225, R226). -/

namespace Sys2Proof.Machine

/-- Apply the reset input: every register to 0, the storage as it was, no response word (70_reset R225). The environment's
further steps and what was already observed are not the block's to change (DESIGN CHOICE, log entry 10). -/
def hardwareReset (s : State) : State :=
  { s with
    configured := false
    mirrorSize := 0
    writeIndex := 0
    readIndex := 0
    err := .none
    wsOpen := false
    wsLen := 0
    rsOpen := false
    rsLen := 0 }

end Sys2Proof.Machine
end

