-- ==== Sys2Proof/Machine/SpanPort.lean ====
section
/-! DEFINITION. The span port: the external agent's single-byte requests (20_memory R58 to R63). They are no commands, have
no encoding (R59) and produce no response word (R62). -/

namespace Sys2Proof.Machine

/-- `SPAN_WR(p, b)`: accepted inside the outstanding write span, where it writes that one cell and nothing else; rejected
elsewhere with no effect (20_memory R61, R62). -/
def spanWrite (p : Index) (b : Byte) (s : State) : Host.Outcome State Fault Refusal :=
  if s.inWriteSpan p.toNat then
    match memWrite s p.toNat b with
    | .error e => .fault e
    | .ok s1 => .next (s1.reply .written)
  else .next (s.reply .rejected)

/-- `SPAN_RD(p)`: accepted inside the outstanding read span, where it returns the byte and changes nothing; rejected
elsewhere with no data (20_memory R60, R62). -/
def spanRead (p : Index) (s : State) : Host.Outcome State Fault Refusal :=
  if s.inReadSpan p.toNat then
    match memRead s p.toNat with
    | .error e => .fault e
    | .ok b => .next (s.reply (.data b))
  else .next (s.reply .rejected)

end Sys2Proof.Machine
end

