-- ==== Sys2Proof/Machine/Serve.lean ====
section
/-! DEFINITION. Serving one step of the environment (20_memory R64): a command transaction, a span-port request, or reset. -/

namespace Sys2Proof.Machine

/-- One command transaction: decode first (60_exceptions R207 step 1); a transaction that is no command is refused with
ILLEGAL_CMD whatever the state (R203); a command is executed. -/
def runTransaction (word : CommandWord) (payload : List Byte) (s : State) : Host.Outcome State Fault Refusal :=
  match decode word payload with
  | .error _ => .next (refuse .illegalCmd s)
  | .ok i => exec i s

/-- One step of exactly one of the kinds of 20_memory R64. -/
def serve (q : Request) (s : State) : Host.Outcome State Fault Refusal :=
  match q with
  | .command word payload => runTransaction word payload s
  | .spanWr p b => spanWrite p b s
  | .spanRd p => spanRead p s
  | .reset => .next (hardwareReset s)

/-- Take the environment's next step; where it has chosen none, nothing happens: the block waits for nothing and never halts
(70_reset R246, R247; DESIGN CHOICE, log entry 2). -/
def serveNext (s : State) : Host.Outcome State Fault Refusal :=
  match s.requests with
  | [] => .next s
  | q :: rest => serve q { s with requests := rest }

/-- The request that carries the transaction lying in the low `nbits` bits of `w` (DESIGN CHOICE, log entry 7). -/
def tableRequest (nbits w : Nat) : Request :=
  .command (tableTransaction nbits w).1 (tableTransaction nbits w).2

end Sys2Proof.Machine
end

