-- ==== Sys2Proof/Machine/Step.lean ====
section
/-! DEFINITION. One step of the system (20_memory R64), and the state in which a given transaction is the next step. -/

namespace Sys2Proof.Machine

/-- One step: the environment's next chosen one. -/
def step (s : State) : Host.Outcome State Fault Refusal := serveNext s

/-- `s` with the transaction of `w` chosen as the very next step; commands are presented at the command port, not fetched
(10_state R24; DESIGN CHOICE, log entry 7). -/
def State.withFetchWord (s : State) (nbits w : Nat) : State :=
  { s with requests := tableRequest nbits w :: s.requests }

end Sys2Proof.Machine
end

