-- ==== Sys2Proof/Safety.lean ====
section
/-! DEFINITION. What the spec promises of every state between two steps (10_state section 6), in the terms the statements use:
the range invariant R31, the live-data mirror invariant R33(a), the whole-head form R33(b), and the accepted and delivered
byte streams of R37. -/

namespace Sys2Proof.Machine

/-- The registers of an UNCONFIGURED block: all at their reset values (10_state R40). -/
abbrev State.Cleared (s : State) : Prop :=
  s.mirrorSize = 0 ∧ s.writeIndex = 0 ∧ s.readIndex = 0 ∧ s.err = .none ∧
    s.wsOpen = false ∧ s.wsLen = 0 ∧ s.rsOpen = false ∧ s.rsLen = 0

/-- 10_state R31: the ranges of the registers of a READY block. -/
abbrev State.InRange (s : State) : Prop :=
  (1 ≤ s.m ∧ 2 * s.m ≤ s.total ∧ s.w ≤ s.ll ∧ s.r ≤ s.ll) ∧
  (s.wsOpen = false → s.wsLen = 0) ∧
  (s.wsOpen = true → 1 ≤ s.wsLen.toNat ∧ s.wsLen.toNat ≤ s.free ∧ s.w + s.wsLen.toNat ≤ s.total - 1 ∧
    (s.w + s.wsLen.toNat > s.cap → s.wsLen.toNat ≤ s.m)) ∧
  (s.rsOpen = false → s.rsLen = 0) ∧
  (s.rsOpen = true → 1 ≤ s.rsLen.toNat ∧ s.rsLen.toNat ≤ s.dist ∧ s.r + s.rsLen.toNat ≤ s.total - 1 ∧
    (s.r + s.rsLen.toNat > s.cap → s.rsLen.toNat ≤ s.m))

/-- The registers' part of the invariant: cleared while UNCONFIGURED, in range while READY (10_state R21, R31, R40). -/
abbrev State.RegisterInv (s : State) : Prop :=
  (s.configured = false → s.Cleared) ∧ (s.configured = true → s.InRange)

/-- The storage is in its canonical form and lists no address outside `[0, TOTAL_SIZE)` (20_memory R50). -/
abbrev State.MemoryInv (s : State) : Prop :=
  Memory.wf s.powerUpByte s.storage = true ∧ ∀ c ∈ s.storage, c.1 < s.total

/-- 10_state R32: `i` is the index of a live byte. -/
abbrev State.Live (s : State) (i : Nat) : Prop := ∃ j, j < s.dist ∧ i = advIndex s.cap s.r j

/-- 10_state R33(a): every live byte of the head equals its mirror byte. -/
abbrev State.LiveMirrored (s : State) : Prop :=
  s.configured = true → ∀ j < s.dist, advIndex s.cap s.r j ≤ s.bl →
    s.byteAt (advIndex s.cap s.r j + s.cap) = s.byteAt (advIndex s.cap s.r j)

/-- Everything the spec promises between two steps. -/
abbrev State.Inv (s : State) : Prop := s.RegisterInv ∧ s.MemoryInv ∧ s.LiveMirrored

/-- 10_state R33(b): every head byte equals its mirror byte, but for the images of an outstanding write span. -/
abbrev State.HeadMirrored (s : State) : Prop :=
  s.configured = true → ∀ i ≤ s.bl,
    (s.wsOpen = true → ∀ j < s.wsLen.toNat, advIndex s.cap s.w j ≠ i) → s.byteAt (i + s.cap) = s.byteAt i

/-- 60_exceptions R200: the command was refused with status `st`: one response word with the unchanged `err` and zero fields,
and nothing else changes. -/
abbrev State.RefusedWith (s : State) (st : Status) (o : Host.Outcome State Fault Refusal) : Prop :=
  o = .next { s with responses := s.responses ++ [packResponse st .none s.err 0 0] }

/-! ### The byte streams (10_state R37) -/

/-- The `n` bytes of storage from `i` up. -/
def State.bytesFrom (s : State) (i n : Nat) : List Byte := (List.range n).map fun j => s.byteAt (i + j)

/-- The live bytes in order, oldest first (10_state R32); none while UNCONFIGURED. -/
def State.liveBytes (s : State) : List Byte :=
  if s.configured then (List.range s.dist).map fun j => s.byteAt (advIndex s.cap s.r j) else []

/-- The bytes a command adds to the accepted stream when it runs in this state (10_state R37): those of a PUSH without
fault, the stored ones of a BULKW, the committed ones of a COMMITW; a refused command adds none. -/
def State.acceptedBy (s : State) (i : Instr) : List Byte :=
  match i with
  | .init _ => []
  | .push v => if s.configured && !s.wsOpen && decide (0 < s.free) then [v] else []
  | .pop => []
  | .bulkw len data => if s.configured && !s.wsOpen then data.take (min len.toNat s.free) else []
  | .allocw _ => []
  | .commitw len =>
    if s.configured && s.wsOpen && decide (len.toNat ≤ s.wsLen.toNat) then s.bytesFrom s.w len.toNat else []
  | .allocr _ => []
  | .commitr _ => []
  | .length => []
  | .hasdata => []
  | .geterr => []
  | .clrerr => []

/-- The bytes a command adds to the delivered stream when it runs in this state (10_state R37): the byte a POP without fault
returns, the released bytes of a COMMITR; a refused command adds none. -/
def State.deliveredBy (s : State) (i : Instr) : List Byte :=
  match i with
  | .init _ => []
  | .push _ => []
  | .pop => if s.configured && !s.rsOpen && decide (s.r ≠ s.w) then [s.byteAt s.r] else []
  | .bulkw _ _ => []
  | .allocw _ => []
  | .commitw _ => []
  | .allocr _ => []
  | .commitr len =>
    if s.configured && s.rsOpen && decide (len.toNat ≤ s.rsLen.toNat) then s.bytesFrom s.r len.toNat else []
  | .length => []
  | .hasdata => []
  | .geterr => []
  | .clrerr => []

/-- The command that this state's next step executes, if that step is a command at all. -/
def State.nextCommand (s : State) : Option Instr :=
  match s.requests with
  | .command word payload :: _ => (decode word payload).toOption
  | _ => Option.none

/-- What the next step adds to the accepted stream. -/
def State.acceptedNow (s : State) : List Byte :=
  match s.nextCommand with
  | some i => s.acceptedBy i
  | Option.none => []

/-- What the next step adds to the delivered stream. -/
def State.deliveredNow (s : State) : List Byte :=
  match s.nextCommand with
  | some i => s.deliveredBy i
  | Option.none => []

/-- The accepted stream of `n` steps from this state (10_state R37). -/
def acceptedStream : Nat → State → List Byte
  | 0, _ => []
  | n + 1, s =>
    match step s with
    | .next t => s.acceptedNow ++ acceptedStream n t
    | .fault _ => []
    | .refused _ => []

/-- The delivered stream of `n` steps from this state (10_state R37). -/
def deliveredStream : Nat → State → List Byte
  | 0, _ => []
  | n + 1, s =>
    match step s with
    | .next t => s.deliveredNow ++ deliveredStream n t
    | .fault _ => []
    | .refused _ => []

/-- The environment applies no reset in the steps it has chosen. -/
abbrev State.NoResetChosen (s : State) : Prop := Request.reset ∉ s.requests

/-- The pushes of `data`, one PUSH a byte (42_bulk_write R138). -/
def pushAll : List Byte → State → Host.Outcome State Fault Refusal
  | [], s => .next s
  | b :: rest, s =>
    match exec (.push b) s with
    | .next t => pushAll rest t
    | .fault f => .fault f
    | .refused r => .refused r

end Sys2Proof.Machine
end

