-- ==== Sys2Proof/Certificates/Slice0/Obligations.lean ====
section
/-! DEFINITION. The statements for the provers: what the commands, the span port, the reset input and the steps of the
MirroredRingBuffer controller do, from the numbered rules of spec/. A statement about a state between two steps takes the
range invariant of 10_state R31 as its premise (`State.InRange`, or `State.Inv` where the storage matters too); that every
step keeps it is a statement of its own. -/

open Sys2Proof Sys2Proof.Machine

/-! ### Encoding -/

/-- Decode and encode agree: a command's own transaction decodes to it, for every value of every operand
(30_encoding R81 to R86). -/
def Obligations.DecodeOfEncodeIsTheCommand : Prop :=
  ∀ i : Instr, i.wellFormed = true → decode (encode i).1 (encode i).2 = .ok i

/-- A transaction that decodes to a command is that command's own encoding: no two transactions are one command, and what
decodes is well formed (30_encoding R84). -/
def Obligations.DecodedTransactionIsItsEncoding : Prop :=
  ∀ (word : CommandWord) (payload : List Byte) (i : Instr),
    decode word payload = .ok i → encode i = (word, payload) ∧ i.wellFormed = true

/-- 30_encoding R84, its equivalent form: a word is command X if and only if `word & mask_X = match_X` (with the payload that
X asks for), the operand being ARG; at most one X can match; and a transaction that is no command is refused. -/
def Obligations.MaskAndMatchDecide : Prop :=
  (∀ (word : CommandWord) (payload : List Byte) (i : Instr),
    decode word payload = .ok i ↔
      (word &&& i.mask = i.matchBits ∧ i.argument = word.extractLsb' 0 16 ∧ i.payload = payload ∧
        i.wellFormed = true)) ∧
  (∀ (word : CommandWord) (i j : Instr),
    word &&& i.mask = i.matchBits → word &&& j.mask = j.matchBits → i.opcode = j.opcode) ∧
  (∀ (word : CommandWord) (payload : List Byte), (∀ i, decode word payload ≠ .ok i) →
    ∀ s : State, s.RefusedWith .illegalCmd (runTransaction word payload s))

/-- 30_encoding R87 and 60_exceptions R203: exactly these transactions decode to no command, and each is refused with
ILLEGAL_CMD and no state change, whatever the state. -/
def Obligations.IllegalTransactionsAreExactlyTheseAndRefused : Prop :=
  ∀ (word : CommandWord) (payload : List Byte),
    let opc := (word.extractLsb' 28 4).toNat
    let arg := word.extractLsb' 0 16
    let illegal := word.extractLsb' 16 12 ≠ 0 ∨ opc = 0x0 ∨ opc = 0xD ∨ opc = 0xE ∨ opc = 0xF ∨
      ((opc = 0x3 ∨ opc = 0x9 ∨ opc = 0xA ∨ opc = 0xB ∨ opc = 0xC) ∧ arg ≠ 0) ∨
      (opc = 0x2 ∧ arg.extractLsb' 8 8 ≠ 0) ∨
      (opc = 0x4 ∧ payload.length ≠ arg.toNat) ∨ (opc ≠ 0x4 ∧ payload ≠ [])
    ((∃ e, decode word payload = .error e) ↔ illegal) ∧
    (illegal → ∀ s : State, s.RefusedWith .illegalCmd (runTransaction word payload s))

/-- Words written out from the encoding table decode to the commands they stand for (30_encoding R96, 95_test_vectors 3.1). -/
def Obligations.WrittenOutWordsDecode : Prop :=
  decode 0x10000004 [] = .ok (.init 4) ∧ decode 0x200000FF [] = .ok (.push 0xFF) ∧
  decode 0x30000000 [] = .ok .pop ∧ decode 0x40000003 [0x0A, 0x0B, 0x0C] = .ok (.bulkw 3 [0x0A, 0x0B, 0x0C]) ∧
  decode 0x50000006 [] = .ok (.allocw 6) ∧ decode 0x60000004 [] = .ok (.commitw 4) ∧
  decode 0x7000FFFF [] = .ok (.allocr 65535) ∧ decode 0x80000002 [] = .ok (.commitr 2) ∧
  decode 0x90000000 [] = .ok .length ∧ decode 0xA0000000 [] = .ok .hasdata ∧
  decode 0xB0000000 [] = .ok .geterr ∧ decode 0xC0000000 [] = .ok .clrerr

/-- The fields of a response word read back at the places 30_encoding R90 gives them, with the codes of R91 and 10_state R25,
and the bits [55:32] are zero. -/
def Obligations.ResponseFieldsReadBack : Prop :=
  ∀ (st : Status) (fault err : ErrorCode) (ptr val : Index),
    let word := packResponse st fault err ptr val
    (word.extractLsb' 60 4).toNat = (match st with
      | .ok => 0 | .configError => 1 | .usageError => 2 | .illegalCmd => 3) ∧
    (word.extractLsb' 58 2).toNat = (match fault with
      | .none => 0 | .overflow => 1 | .underflow => 2) ∧
    (word.extractLsb' 56 2).toNat = (match err with
      | .none => 0 | .overflow => 1 | .underflow => 2) ∧
    word.extractLsb' 32 24 = 0 ∧ word.extractLsb' 16 16 = ptr ∧ word.extractLsb' 0 16 = val

/-! ### Steps -/

/-- A step runs the decoded command: when the environment's next step is a command transaction, `step` runs that transaction
on the state from which it has been taken; that is `exec i` there if it decodes to `i`, and if it decodes to no command the
refusal ILLEGAL_CMD there, with nothing else changed (60_exceptions R203, R207 step 1). -/
def Obligations.StepRunsTheDecodedCommand : Prop :=
  ∀ (s : State) (word : CommandWord) (payload : List Byte) (rest : List Request),
    s.requests = .command word payload :: rest →
      let taken : State := { s with requests := rest }
      step s = runTransaction word payload taken ∧
      (∀ i, decode word payload = .ok i → step s = exec i taken) ∧
      ((∀ i, decode word payload ≠ .ok i) → taken.RefusedWith .illegalCmd (step s))

/-- Every command transaction, legal or not, faulting or not, produces exactly one response word and no answer at the span
port (60_exceptions R205, 30_encoding R80). -/
def Obligations.OneResponsePerTransaction : Prop :=
  ∀ (s t : State) (word : CommandWord) (payload : List Byte) (rest : List Request),
    s.requests = .command word payload :: rest → step s = .next t →
      ∃ response, t.responses = s.responses ++ [response] ∧ t.requests = rest ∧ t.spanReplies = s.spanReplies

/-- The model's choice (log entry 2): where the environment has chosen no step, nothing happens. -/
def Obligations.NothingHappensWithoutARequest : Prop :=
  ∀ s : State, s.requests = [] → step s = .next s

/-- 70_reset R246 and 20_memory R50: every step from a state within the invariant completes; in particular no access leaves
the storage. That a step completes where the environment has chosen none is the model's choice (log entry 2). -/
def Obligations.EveryStepCompletes : Prop :=
  ∀ s : State, s.Inv → ∃ t, step s = .next t

/-- Every command, whatever its operands, completes and produces its response word (70_reset R246). It speaks of every term of
`Instr`: that a BULKW whose payload is not `len` bytes long, to which nothing decodes, completes too is the model's choice
(log entry 11). -/
def Obligations.EveryCommandCompletes : Prop :=
  ∀ (i : Instr) (s : State), s.RegisterInv →
    ∃ (t : State) (response : ResponseWord), exec i s = .next t ∧ t.responses = s.responses ++ [response]

/-! ### Reset -/

/-- 10_state R40, 70_reset R227: after power-up reset every register is 0 and every byte of storage is the power-up byte (that
this is the opaque `Config.powerUpByte` is the model's form of "unspecified", log entry 5). -/
def Obligations.PowerUpResetState : Prop :=
  State.reset.configured = false ∧ State.reset.Cleared ∧ ∀ i, State.reset.byteAt i = Config.powerUpByte i

/-- 70_reset R225: the reset input sets every register to 0, leaves every byte of storage as it was and emits no response
word; after it every command but INIT is refused. 70_reset R226: every span-port request after it is rejected. That the
environment's further steps and the span port's earlier answers stay is the model's choice (log entry 10). -/
def Obligations.ResetInputClearsTheRegisters : Prop :=
  ∀ (s : State) (rest : List Request), s.requests = .reset :: rest →
    (∃ t, step s = .next t ∧ t.configured = false ∧ t.Cleared ∧ t.storage = s.storage ∧ (∀ i, t.byteAt i = s.byteAt i) ∧
      t.totalSize = s.totalSize ∧ t.powerUpFixed = s.powerUpFixed ∧ t.requests = rest ∧
      t.responses = s.responses ∧ t.spanReplies = s.spanReplies ∧
      (∀ i, (∀ m0, i ≠ .init m0) → t.RefusedWith .usageError (exec i t)) ∧
      ∀ p b, spanWrite p b t = .next (t.reply .rejected) ∧ spanRead p t = .next (t.reply .rejected))

/-! ### Lifecycle, span protocol -/

/-- 60_exceptions R201: while UNCONFIGURED every command but INIT is refused with USAGE_ERROR; while READY, INIT is. -/
def Obligations.LifecycleRefusals : Prop :=
  ∀ (i : Instr) (s : State),
    (s.configured = false → (∀ m0, i ≠ .init m0) → s.RefusedWith .usageError (exec i s)) ∧
    (s.configured = true → (∃ m0, i = .init m0) → s.RefusedWith .usageError (exec i s))

/-- 60_exceptions R202: while READY, a command is refused with USAGE_ERROR when the table's condition on the spans holds; and
the four status commands never are, nor is any command whose condition does not hold. -/
def Obligations.SpanProtocolRefusals : Prop :=
  ∀ (i : Instr) (s : State), s.configured = true → s.InRange → (∀ m0, i ≠ .init m0) →
    let refused := match i with
      | .push _ => s.wsOpen = true
      | .bulkw _ _ => s.wsOpen = true
      | .allocw _ => s.wsOpen = true
      | .commitw len => s.wsOpen = false ∨ len.toNat > s.wsLen.toNat
      | .pop => s.rsOpen = true
      | .allocr _ => s.rsOpen = true
      | .commitr len => s.rsOpen = false ∨ len.toNat > s.rsLen.toNat
      | _ => False
    (refused → s.RefusedWith .usageError (exec i s)) ∧
    (¬ refused → ∃ (t : State) (f : ErrorCode) (ptr val : Index), exec i s = .next t ∧
      t.responses = s.responses ++ [packResponse .ok f t.err ptr val])

/-! ### The commands, one by one -/

/-- INIT (40_construction R110, R111): refused with USAGE_ERROR while READY, with CONFIG_ERROR if and only if `m0 = 0` or
`2*m0 > TOTAL_SIZE`, else it constructs; the storage and all else are untouched. -/
def Obligations.InitConstructsOrIsRefused : Prop :=
  ∀ (m0 : Index) (s : State),
    encode (.init m0) = (0x10000000#32 ||| m0.setWidth 32, []) ∧
    (s.configured = true → s.RefusedWith .usageError (exec (.init m0) s)) ∧
    (s.configured = false → (m0.toNat = 0 ∨ 2 * m0.toNat > s.total) →
      s.RefusedWith .configError (exec (.init m0) s)) ∧
    (s.configured = false → 0 < m0.toNat → 2 * m0.toNat ≤ s.total →
      exec (.init m0) s = .next { s with
        mirrorSize := m0, writeIndex := 0, readIndex := 0, err := .none, wsOpen := false, wsLen := 0,
        rsOpen := false, rsLen := 0, configured := true, responses := s.responses ++ [0x0000000000000000#64] })

/-- PUSH (41_byte_ops R121): refusals; else the byte is stored at `w` and, for a head index, at its mirror cell, full or not;
`w` advances unless the buffer is full (`next(w) = r`, that is `free = 0`), which raises Overflow. Every other byte and every other field is unchanged. -/
def Obligations.PushStoresMirrorsAndAdvances : Prop :=
  ∀ (v : Byte) (s : State),
    encode (.push v) = (0x20000000#32 ||| v.setWidth 32, []) ∧
    (s.configured = false → s.RefusedWith .usageError (exec (.push v) s)) ∧
    (s.configured = true → s.wsOpen = true → s.RefusedWith .usageError (exec (.push v) s)) ∧
    (s.configured = true → s.wsOpen = false → s.InRange →
      (nextIndex s.cap s.w = s.r ↔ s.free = 0) ∧
      ∃ mem : Memory,
        (∀ a, Memory.read s.powerUpByte mem a =
          if a = s.w ∨ (s.w ≤ s.bl ∧ a = s.w + s.cap) then v else s.byteAt a) ∧
        (nextIndex s.cap s.w = s.r → exec (.push v) s = .next { s with
          storage := mem, err := .overflow,
          responses := s.responses ++ [packResponse .ok .overflow .overflow 0 0] }) ∧
        (nextIndex s.cap s.w ≠ s.r → exec (.push v) s = .next { s with
          storage := mem, writeIndex := toIndex (nextIndex s.cap s.w),
          responses := s.responses ++ [packResponse .ok .none s.err 0 0] }))

/-- POP (41_byte_ops R126): refusals; else the byte at `r` is returned, stale when the buffer is empty, which raises Underflow
and leaves `r`; otherwise `r` advances. Nothing else changes. -/
def Obligations.PopReturnsTheOldestByte : Prop :=
  ∀ s : State,
    encode .pop = (0x30000000#32, []) ∧
    (s.configured = false → s.RefusedWith .usageError (exec .pop s)) ∧
    (s.configured = true → s.rsOpen = true → s.RefusedWith .usageError (exec .pop s)) ∧
    (s.configured = true → s.rsOpen = false → s.InRange → s.r = s.w →
      exec .pop s = .next { s with
        err := .underflow,
        responses := s.responses ++ [packResponse .ok .underflow .underflow 0 ((s.byteAt s.r).setWidth 16)] }) ∧
    (s.configured = true → s.rsOpen = false → s.InRange → s.r ≠ s.w →
      exec .pop s = .next { s with
        readIndex := toIndex (nextIndex s.cap s.r),
        responses := s.responses ++ [packResponse .ok .none s.err 0 ((s.byteAt s.r).setWidth 16)] })

/-- BULKW (42_bulk_write R136): refusals; else the leading `n = min(len, free)` payload bytes are stored at `adv(w, j)` and
mirrored in the head, `w` advances by `n`, VAL is `n`, and Overflow is raised exactly when `len > free`. Every other byte and
every other field is unchanged. -/
def Obligations.BulkWriteStoresWhatFits : Prop :=
  ∀ (len : Index) (data : List Byte) (s : State), (Instr.bulkw len data).wellFormed = true →
    let n := min len.toNat s.free
    encode (.bulkw len data) = (0x40000000#32 ||| len.setWidth 32, data) ∧
    (s.configured = false → s.RefusedWith .usageError (exec (.bulkw len data) s)) ∧
    (s.configured = true → s.wsOpen = true → s.RefusedWith .usageError (exec (.bulkw len data) s)) ∧
    (s.configured = true → s.wsOpen = false → s.InRange →
      ∃ mem : Memory,
        (∀ j < n, data[j]? = some (Memory.read s.powerUpByte mem (advIndex s.cap s.w j)) ∧
          (advIndex s.cap s.w j ≤ s.bl →
            data[j]? = some (Memory.read s.powerUpByte mem (advIndex s.cap s.w j + s.cap)))) ∧
        (∀ a, (∀ j < n, a ≠ advIndex s.cap s.w j ∧
            ¬ (advIndex s.cap s.w j ≤ s.bl ∧ a = advIndex s.cap s.w j + s.cap)) →
          Memory.read s.powerUpByte mem a = s.byteAt a) ∧
        (len.toNat ≤ s.free → exec (.bulkw len data) s = .next { s with
          storage := mem, writeIndex := toIndex (advIndex s.cap s.w n),
          responses := s.responses ++ [packResponse .ok .none s.err 0 (toIndex n)] }) ∧
        (len.toNat > s.free → exec (.bulkw len data) s = .next { s with
          storage := mem, writeIndex := toIndex (advIndex s.cap s.w n), err := .overflow,
          responses := s.responses ++ [packResponse .ok .overflow .overflow 0 (toIndex n)] }))

/-- BULKW against PUSH (42_bulk_write R138): for `len <= free` it leaves the state that the `len` PUSHes leave; for
`len > free` the state of the first `free` PUSHes with `err = Overflow` in addition. Equal in every field but the response
words, the storage as data. -/
def Obligations.BulkWriteIsARunOfPushes : Prop :=
  ∀ (len : Index) (data : List Byte) (s : State), (Instr.bulkw len data).wellFormed = true →
    s.configured = true → s.wsOpen = false → s.InRange → s.MemoryInv →
    ∃ b p : State, exec (.bulkw len data) s = .next b ∧ pushAll (data.take s.free) s = .next p ∧
      (len.toNat ≤ s.free → { b with responses := p.responses } = p) ∧
      (len.toNat > s.free → { b with responses := p.responses } = { p with err := .overflow })

/-- ALLOCW (43_write_span R146 to R148): refusals; else the grant is `g0 = min(max_len, free)`, cut to `m` when
`w + g0 > cap`; PTR is `w`, VAL the grant; a zero grant raises Overflow and opens no span, any other opens it. Nothing else
changes. -/
def Obligations.AllocWriteGrantsASpan : Prop :=
  ∀ (maxLen : Index) (s : State),
    let g0 := min maxLen.toNat s.free
    let g := if s.w + g0 > s.cap then min g0 s.m else g0
    encode (.allocw maxLen) = (0x50000000#32 ||| maxLen.setWidth 32, []) ∧
    (s.configured = false → s.RefusedWith .usageError (exec (.allocw maxLen) s)) ∧
    (s.configured = true → s.wsOpen = true → s.RefusedWith .usageError (exec (.allocw maxLen) s)) ∧
    (s.configured = true → s.wsOpen = false → g = 0 →
      exec (.allocw maxLen) s = .next { s with
        err := .overflow,
        responses := s.responses ++ [packResponse .ok .overflow .overflow s.writeIndex 0] }) ∧
    (s.configured = true → s.wsOpen = false → 1 ≤ g →
      exec (.allocw maxLen) s = .next { s with
        wsOpen := true, wsLen := toIndex g,
        responses := s.responses ++ [packResponse .ok .none s.err s.writeIndex (toIndex g)] })

/-- The zero grant of ALLOCW (43_write_span R147): the grant is 0 in exactly two situations, a full buffer or `max_len = 0`;
then Overflow is raised, PTR is still `w`, no span is opened, and a COMMITW after it is refused. -/
def Obligations.ZeroWriteGrantExactly : Prop :=
  ∀ (maxLen : Index) (s : State), s.configured = true → s.InRange → s.wsOpen = false →
    (s.writeGrant maxLen = 0 ↔ (s.free = 0 ∨ maxLen = 0)) ∧
    (s.free = 0 ∨ maxLen = 0 → ∃ t : State, exec (.allocw maxLen) s = .next t ∧ t.err = .overflow ∧ t.wsOpen = false ∧
      t.responses = s.responses ++ [packResponse .ok .overflow .overflow s.writeIndex 0] ∧
      ∀ len, t.RefusedWith .usageError (exec (.commitw len) t))

/-- Span contiguity (43_write_span R149(f), 44_read_span R169(f), 70_reset R233): a request of at most `m` bytes always gets
`min(max_len, available)`, on both sides; and no grant ever leaves the storage, reaches its last byte, or puts more than `m`
bytes across the wrap (43_write_span R149(g), 44_read_span R169(g)). -/
def Obligations.GrantsAreContiguousAndBounded : Prop :=
  ∀ (maxLen : Index) (s : State), s.InRange →
    (maxLen.toNat ≤ s.m → s.writeGrant maxLen = min maxLen.toNat s.free ∧
      s.readGrant maxLen = min maxLen.toNat s.dist) ∧
    s.writeGrant maxLen ≤ s.free ∧ s.readGrant maxLen ≤ s.dist ∧
    s.w + s.writeGrant maxLen ≤ s.total - 1 ∧ s.r + s.readGrant maxLen ≤ s.total - 1 ∧
    (s.w + s.writeGrant maxLen > s.cap → s.writeGrant maxLen ≤ s.m) ∧
    (s.r + s.readGrant maxLen > s.cap → s.readGrant maxLen ≤ s.m)

/-- COMMITW (43_write_span R150, R152): refusals, with the span left open; else the committed head bytes are copied to their
mirror cells, the spilled bytes to the head, `w` advances by `len` and the span closes. Every other byte and every other
field is unchanged; no fault is raised. -/
def Obligations.CommitWriteMirrorsAndRelocates : Prop :=
  ∀ (len : Index) (s : State),
    encode (.commitw len) = (0x60000000#32 ||| len.setWidth 32, []) ∧
    (s.configured = false → s.RefusedWith .usageError (exec (.commitw len) s)) ∧
    (s.configured = true → s.wsOpen = false → s.RefusedWith .usageError (exec (.commitw len) s)) ∧
    (s.configured = true → s.wsOpen = true → len.toNat > s.wsLen.toNat →
      s.RefusedWith .usageError (exec (.commitw len) s)) ∧
    (s.configured = true → s.wsOpen = true → len.toNat ≤ s.wsLen.toNat → s.InRange →
      ∃ mem : Memory,
        (∀ a, Memory.read s.powerUpByte mem a =
          if s.cap + s.w ≤ a ∧ a < s.cap + min (s.w + len.toNat) (s.bl + 1) then s.byteAt (a - s.cap)
          else if a + s.cap < s.w + len.toNat then s.byteAt (a + s.cap)
          else s.byteAt a) ∧
        exec (.commitw len) s = .next { s with
          storage := mem, writeIndex := toIndex (advIndex s.cap s.w len.toNat), wsOpen := false, wsLen := 0,
          responses := s.responses ++ [packResponse .ok .none s.err 0 0] })

/-- ALLOCR (44_read_span R166 to R168): refusals; else the grant is `g0 = min(max_len, dist)`, cut to `m` when
`r + g0 > cap`; PTR is `r`, VAL the grant; an empty buffer raises Underflow and grants 0; a zero grant opens no span and, on
data, raises nothing; any other opens it. Nothing else changes. -/
def Obligations.AllocReadGrantsASpan : Prop :=
  ∀ (maxLen : Index) (s : State),
    let g0 := min maxLen.toNat s.dist
    let g := if s.r + g0 > s.cap then min g0 s.m else g0
    encode (.allocr maxLen) = (0x70000000#32 ||| maxLen.setWidth 32, []) ∧
    (s.configured = false → s.RefusedWith .usageError (exec (.allocr maxLen) s)) ∧
    (s.configured = true → s.rsOpen = true → s.RefusedWith .usageError (exec (.allocr maxLen) s)) ∧
    (s.configured = true → s.rsOpen = false → s.r = s.w →
      exec (.allocr maxLen) s = .next { s with
        err := .underflow,
        responses := s.responses ++ [packResponse .ok .underflow .underflow s.readIndex 0] }) ∧
    (s.configured = true → s.rsOpen = false → s.r ≠ s.w → g = 0 →
      exec (.allocr maxLen) s = .next { s with
        responses := s.responses ++ [packResponse .ok .none s.err s.readIndex 0] }) ∧
    (s.configured = true → s.rsOpen = false → s.r ≠ s.w → 1 ≤ g →
      exec (.allocr maxLen) s = .next { s with
        rsOpen := true, rsLen := toIndex g,
        responses := s.responses ++ [packResponse .ok .none s.err s.readIndex (toIndex g)] })

/-- COMMITR (44_read_span R170, R171): refusals, with the span left open; else `r` advances by `len` and the span closes. No
byte of storage and no other field changes; no fault is raised. -/
def Obligations.CommitReadReleases : Prop :=
  ∀ (len : Index) (s : State),
    encode (.commitr len) = (0x80000000#32 ||| len.setWidth 32, []) ∧
    (s.configured = false → s.RefusedWith .usageError (exec (.commitr len) s)) ∧
    (s.configured = true → s.rsOpen = false → s.RefusedWith .usageError (exec (.commitr len) s)) ∧
    (s.configured = true → s.rsOpen = true → len.toNat > s.rsLen.toNat →
      s.RefusedWith .usageError (exec (.commitr len) s)) ∧
    (s.configured = true → s.rsOpen = true → len.toNat ≤ s.rsLen.toNat →
      exec (.commitr len) s = .next { s with
        readIndex := toIndex (advIndex s.cap s.r len.toNat), rsOpen := false, rsLen := 0,
        responses := s.responses ++ [packResponse .ok .none s.err 0 0] })

/-- LENGTH (45_status_queries R181): VAL is `dist(r, w)`, in `[0, cap - 1]`; nothing else changes. -/
def Obligations.LengthAnswersTheDistance : Prop :=
  ∀ s : State,
    encode .length = (0x90000000#32, []) ∧
    (s.configured = false → s.RefusedWith .usageError (exec .length s)) ∧
    (s.configured = true → exec .length s = .next { s with
      responses := s.responses ++ [packResponse .ok .none s.err 0 (toIndex (distIndex s.cap s.r s.w))] }) ∧
    (s.configured = true → s.InRange → (toIndex (distIndex s.cap s.r s.w)).toNat = distIndex s.cap s.r s.w ∧
      distIndex s.cap s.r s.w ≤ s.cap - 1)

/-- HASDATA (45_status_queries R183): VAL is 1 if `r != w`, that is if LENGTH's VAL is not 0, else 0; nothing else changes. -/
def Obligations.HasDataAnswersNonEmptiness : Prop :=
  ∀ s : State,
    encode .hasdata = (0xA0000000#32, []) ∧
    (s.configured = false → s.RefusedWith .usageError (exec .hasdata s)) ∧
    (s.configured = true → exec .hasdata s = .next { s with
      responses := s.responses ++ [packResponse .ok .none s.err 0 (if s.r ≠ s.w then 1 else 0)] }) ∧
    (s.configured = true → s.InRange → (s.r ≠ s.w ↔ toIndex (distIndex s.cap s.r s.w) ≠ 0))

/-- GETERR (45_status_queries R185): VAL is the code of `err`, which it does not clear; nothing else changes. -/
def Obligations.GetErrorReadsWithoutClearing : Prop :=
  ∀ s : State,
    encode .geterr = (0xB0000000#32, []) ∧
    (s.configured = false → s.RefusedWith .usageError (exec .geterr s)) ∧
    (s.configured = true → exec .geterr s = .next { s with
      responses := s.responses ++ [packResponse .ok .none s.err 0
        (match s.err with | .none => 0 | .overflow => 1 | .underflow => 2)] })

/-- CLRERR (45_status_queries R187): `err` becomes None, and the response's ERR field with it; nothing else changes. -/
def Obligations.ClearErrorClears : Prop :=
  ∀ s : State,
    encode .clrerr = (0xC0000000#32, []) ∧
    (s.configured = false → s.RefusedWith .usageError (exec .clrerr s)) ∧
    (s.configured = true → exec .clrerr s = .next { s with
      err := .none, responses := s.responses ++ [0x0000000000000000#64] })

/-! ### The span port -/

/-- `SPAN_RD(p)` (20_memory R60, R62): accepted if and only if the block is READY, a read span is outstanding and
`r <= p < r + rs_len`; then the answer is the stored byte, which is the `(p - r)`-th oldest unread byte; otherwise it is
rejected with no data. No other field changes, no response word is emitted. -/
def Obligations.SpanReadIsGuarded : Prop :=
  ∀ (s : State) (p : Index) (rest : List Request), s.requests = .spanRd p :: rest → s.RegisterInv →
    ((s.configured = true ∧ s.rsOpen = true ∧ s.r ≤ p.toNat ∧ p.toNat < s.r + s.rsLen.toNat) →
      step s = .next { s with
        requests := rest, spanReplies := s.spanReplies ++ [.data (s.byteAt p.toNat)] } ∧
      (s.LiveMirrored → p.toNat - s.r < s.dist ∧ s.byteAt p.toNat = s.byteAt (advIndex s.cap s.r (p.toNat - s.r)))) ∧
    (¬ (s.configured = true ∧ s.rsOpen = true ∧ s.r ≤ p.toNat ∧ p.toNat < s.r + s.rsLen.toNat) →
      step s = .next { s with requests := rest, spanReplies := s.spanReplies ++ [.rejected] })

/-- `SPAN_WR(p, b)` (20_memory R61, R62): accepted if and only if the block is READY, a write span is outstanding and
`w <= p < w + ws_len`; then that one byte is written, its mirror cell is not, and the index cannot be read through the read
span; otherwise it is rejected with no effect. No other field changes, no response word is emitted. -/
def Obligations.SpanWriteIsGuarded : Prop :=
  ∀ (s : State) (p : Index) (b : Byte) (rest : List Request), s.requests = .spanWr p b :: rest → s.RegisterInv →
    ((s.configured = true ∧ s.wsOpen = true ∧ s.w ≤ p.toNat ∧ p.toNat < s.w + s.wsLen.toNat) →
      ∃ mem : Memory, (∀ a, Memory.read s.powerUpByte mem a = if a = p.toNat then b else s.byteAt a) ∧
        step s = .next { s with
          storage := mem, requests := rest, spanReplies := s.spanReplies ++ [.written] } ∧
        s.inReadSpan p.toNat = false) ∧
    (¬ (s.configured = true ∧ s.wsOpen = true ∧ s.w ≤ p.toNat ∧ p.toNat < s.w + s.wsLen.toNat) →
      step s = .next { s with requests := rest, spanReplies := s.spanReplies ++ [.rejected] })

/-- 20_memory R63, the write side, and 43_write_span R148: while a write span is outstanding, no step but an accepted `SPAN_WR`
changes any byte of it, no index of it can be read through the span port, and until it is closed neither its base nor its
length moves and the free space does not shrink. -/
def Obligations.WriteSpanIsExclusive : Prop :=
  ∀ s t : State, s.Inv → s.configured = true → s.wsOpen = true → step s = .next t →
    (∀ p, s.w ≤ p → p < s.w + s.wsLen.toNat →
      ((∀ q b rest, s.requests ≠ .spanWr q b :: rest) → t.byteAt p = s.byteAt p) ∧ s.inReadSpan p = false) ∧
    (t.wsOpen = true → t.writeIndex = s.writeIndex ∧ t.wsLen = s.wsLen ∧ s.free ≤ t.free)

/-- 70_reset R236: while a read span is outstanding, no step changes any byte of it, and until it is closed neither its base
nor its length moves and the data does not shrink (44_read_span R168). -/
def Obligations.ReadSpanIsStable : Prop :=
  ∀ s t : State, s.Inv → s.configured = true → s.rsOpen = true → step s = .next t →
    (∀ p, s.r ≤ p → p < s.r + s.rsLen.toNat → t.byteAt p = s.byteAt p) ∧
    (t.rsOpen = true → t.readIndex = s.readIndex ∧ t.rsLen = s.rsLen ∧ s.dist ≤ t.dist)

/-- 10_state R38: the physically contiguous bytes of an outstanding read span are the oldest unread bytes in order, also
where the span runs on into the mirror region. -/
def Obligations.ReadSpanIsContiguous : Prop :=
  ∀ s : State, s.Inv → s.configured = true → s.rsOpen = true →
    ∀ j < s.rsLen.toNat, s.byteAt (s.r + j) = s.byteAt (advIndex s.cap s.r j)

/-- 10_state R32: `w` is free; and the images of an outstanding write span in the real region are `adv(w, 0)` to
`adv(w, ws_len - 1)`, all free, the empty slot just before `r` not among them. -/
def Obligations.WriteSpanImagesAreFree : Prop :=
  ∀ s : State, s.configured = true → s.InRange →
    ¬ s.Live s.w ∧
    (s.wsOpen = true → ∀ j < s.wsLen.toNat,
      advIndex s.cap s.w j = (if s.w + j ≤ s.ll then s.w + j else s.w + j - s.cap) ∧
      ¬ s.Live (advIndex s.cap s.w j) ∧ nextIndex s.cap (advIndex s.cap s.w j) ≠ s.r)

/-! ### The pointer wrap-around engine -/

/-- 10_state R26, R29: `next` and `adv` stay in `[0, ll]`, `adv(i, n) = (i + n) mod cap`, and `adv(i, 1) = next(i)` wherever
a step by one is in `adv`'s range. -/
def Obligations.AdvanceIsAdditionModuloCapacity : Prop :=
  ∀ cap i n : Nat, 1 ≤ cap → i ≤ cap - 1 → n ≤ cap - 1 →
    advIndex cap i n = (if i + n ≤ cap - 1 then i + n else i + n - cap) ∧ advIndex cap i n = (i + n) % cap ∧
    advIndex cap i n ≤ cap - 1 ∧ nextIndex cap i = (if i = cap - 1 then 0 else i + 1) ∧
    nextIndex cap i = (i + 1) % cap ∧ nextIndex cap i ≤ cap - 1 ∧ (2 ≤ cap → advIndex cap i 1 = nextIndex cap i)

/-- 10_state R27, R28, R30, R36: `dist(r, w)` is `(w - r) mod cap`, lies in `[0, cap - 1]`, is 0 exactly when `r = w`, takes
`r` to `w`, grows by 1 with each `next` of a `w` that is not full, and the buffer is full (`free = 0`) exactly when `next(w) = r`. -/
def Obligations.DistanceAndFreeSpace : Prop :=
  ∀ cap r w : Nat, 1 ≤ cap → r ≤ cap - 1 → w ≤ cap - 1 →
    (distIndex cap r w : Int) = ((w : Int) - r) % cap ∧ distIndex cap r w ≤ cap - 1 ∧
    (distIndex cap r w = 0 ↔ r = w) ∧ advIndex cap r (distIndex cap r w) = w ∧
    (nextIndex cap w ≠ r → distIndex cap r (nextIndex cap w) = distIndex cap r w + 1) ∧
    freeSpace cap r w ≤ cap - 1 ∧ distIndex cap r w + freeSpace cap r w = cap - 1 ∧
    (freeSpace cap r w = 0 ↔ nextIndex cap w = r)

/-! ### Invariants -/

/-- The invariant holds after power-up reset. -/
def Obligations.ResetStateSatisfiesTheInvariant : Prop := State.reset.Inv

/-- 10_state R31: every step keeps the registers in range while READY, and cleared while UNCONFIGURED. -/
def Obligations.StepKeepsRegistersInRange : Prop :=
  ∀ s t : State, s.RegisterInv → step s = .next t → t.RegisterInv

/-- Every step keeps the storage in its canonical form and inside `[0, TOTAL_SIZE)` (20_memory R50). -/
def Obligations.StepKeepsStorageCanonical : Prop :=
  ∀ s t : State, s.MemoryInv → step s = .next t → t.MemoryInv

/-- 10_state R33(a), with R31 and the canonical storage: every step keeps the live-data mirror invariant, whatever the storage
held at INIT and whatever the external agent writes inside its span. -/
def Obligations.StepKeepsLiveMirror : Prop :=
  ∀ s t : State, s.Inv → step s = .next t → t.Inv

/-- The same over any number of steps from power-up reset, for whatever steps the environment chooses, whatever the storage
held at power-up and whatever TOTAL_SIZE is (10_state R31, R33(a), R40; 70_reset R246). The canonical form of the storage
(log entry 5) and the steps beyond the last chosen one (log entry 2) are the model's choices. -/
def Obligations.InvariantHoldsInEveryRun : Prop :=
  ∀ (total : Index) (content : List Byte) (requests : List Request) (n : Nat),
    ∃ t : State,
      Sys2Proof.core.run n
        ({ State.reset with totalSize := total, powerUpFixed := content, requests := requests } : State) = .next t ∧
      t.Inv

/-- 10_state R33(b), the whole-head form, with a stronger premise in place of H2 (each span is committed whole): a step of a
READY block keeps the equality of head and mirror region outside the outstanding write span, unless it is a COMMITW of less
than the whole span; a COMMITW that is refused, for no span or for too long a length, keeps it too. -/
def Obligations.StepKeepsWholeHeadMirror : Prop :=
  ∀ s t : State, s.Inv → s.configured = true → s.HeadMirrored → step s = .next t →
    (∀ len, s.nextCommand = some (.commitw len) → s.wsLen.toNat ≤ len.toNat) → t.HeadMirrored

/-! ### Conservation -/

/-- 10_state R37, one step: what a step delivers, followed by the live bytes after it, is the live bytes before it, followed
by what the step accepts. A reset, which drops the live bytes (70_reset R226), is left out. -/
def Obligations.StepConservesTheByteStream : Prop :=
  ∀ s t : State, s.Inv → (∀ rest, s.requests ≠ .reset :: rest) → step s = .next t →
    s.deliveredNow ++ t.liveBytes = s.liveBytes ++ s.acceptedNow

/-- 10_state R37: over any run without reset, the delivered stream followed by the live bytes is the bytes that were live at
the start followed by the accepted stream: first in, first out, nothing lost and nothing invented. -/
def Obligations.RunConservesTheByteStream : Prop :=
  ∀ (n : Nat) (s t : State), s.Inv → s.NoResetChosen → Sys2Proof.core.run n s = .next t →
    deliveredStream n s ++ t.liveBytes = s.liveBytes ++ acceptedStream n s

/-! ### Who writes what -/

/-- 10_state R21, R22, 40_construction R112: a READY block stays READY with the same `m` at every step but a reset; and no
step changes TOTAL_SIZE (00_scope R5) or the power-up content (93 U3), which the model carries as fields of State by its own
choice (log entries 4 and 5). -/
def Obligations.ConfigurationIsFixedUntilReset : Prop :=
  ∀ s t : State, step s = .next t →
    t.totalSize = s.totalSize ∧ t.powerUpFixed = s.powerUpFixed ∧
    (s.configured = true → (∀ rest, s.requests ≠ .reset :: rest) →
      t.configured = true ∧ t.mirrorSize = s.mirrorSize)

/-- 10_state R23: `w` is written only by PUSH, BULKW and COMMITW, `r` only by POP and COMMITR (INIT and reset set both to 0). -/
def Obligations.CursorsHaveTheirOwnWriters : Prop :=
  ∀ (i : Instr) (s t : State), exec i s = .next t → (∀ m0, i ≠ .init m0) →
    ((∀ v, i ≠ .push v) → (∀ len data, i ≠ .bulkw len data) → (∀ len, i ≠ .commitw len) →
      t.writeIndex = s.writeIndex) ∧
    (i ≠ .pop → (∀ len, i ≠ .commitr len) → t.readIndex = s.readIndex)

/-- 45_status_queries R189, 10_state R25: the only steps after which a set `err` is None are CLRERR, a successful INIT and
reset; a step that changes `err` to Overflow is a write-side command's, to Underflow a read-side command's. -/
def Obligations.StickyErrorHasItsOwnWriters : Prop :=
  ∀ s t : State, step s = .next t → t.err ≠ s.err →
    (t.err = .none → s.nextCommand = some .clrerr ∨ (∃ m0, s.nextCommand = some (.init m0) ∧ t.configured = true) ∨
      ∃ rest, s.requests = .reset :: rest) ∧
    (t.err = .overflow → (∃ v, s.nextCommand = some (.push v)) ∨
      (∃ len data, s.nextCommand = some (.bulkw len data)) ∨ ∃ n, s.nextCommand = some (.allocw n)) ∧
    (t.err = .underflow → s.nextCommand = some .pop ∨ ∃ n, s.nextCommand = some (.allocr n))

/-- 60_exceptions R196, R197 and 30_encoding R92: the exact fault conditions. A command of a READY block that is not refused
answers OK with FAULT non-zero in exactly the table's cases, and then `err` and ERR hold that fault. -/
def Obligations.FaultsAreExactlyTheTable : Prop :=
  ∀ (i : Instr) (s : State), s.configured = true → s.InRange →
    (s.wsOpen = true → i.opcode ≠ 0x2 ∧ i.opcode ≠ 0x4 ∧ i.opcode ≠ 0x5) →
    (s.rsOpen = true → i.opcode ≠ 0x3 ∧ i.opcode ≠ 0x7) →
    (∀ len, i = .commitw len → s.wsOpen = true ∧ len.toNat ≤ s.wsLen.toNat) →
    (∀ len, i = .commitr len → s.rsOpen = true ∧ len.toNat ≤ s.rsLen.toNat) → (∀ m0, i ≠ .init m0) →
    let fault : ErrorCode := match i with
      | .push _ => if nextIndex s.cap s.w = s.r then .overflow else .none
      | .bulkw len _ => if len.toNat > s.free then .overflow else .none
      | .allocw maxLen => if s.free = 0 ∨ maxLen = 0 then .overflow else .none
      | .pop => if s.r = s.w then .underflow else .none
      | .allocr _ => if s.r = s.w then .underflow else .none
      | _ => .none
    ∃ (t : State) (ptr val : Index), exec i s = .next t ∧
      t.responses = s.responses ++ [packResponse .ok fault t.err ptr val] ∧ (fault ≠ .none → t.err = fault)

/-- 10_state R25: `err` influences the behaviour of no command. Two states that differ only in `err` are taken to states
that differ at most in `err` and in the one response word each adds; and the two words have the same STATUS, FAULT and PTR, the
same VAL but for a GETERR of a READY block, which returns `err`, and so differ otherwise at most in ERR, which is `err` after
the command. -/
def Obligations.StickyErrorInfluencesNoCommand : Prop :=
  ∀ (i : Instr) (s t : State) (e : ErrorCode), exec i s = .next t →
    ∃ t' : State, exec i { s with err := e } = .next t' ∧
      { t' with err := t.err, responses := t.responses } = t ∧
      (t'.err = t.err ∨ (t.err = s.err ∧ t'.err = e)) ∧
      ∃ (st : Status) (f : ErrorCode) (ptr val val' : Index),
        t.responses = s.responses ++ [packResponse st f t.err ptr val] ∧
        t'.responses = s.responses ++ [packResponse st f t'.err ptr val'] ∧
        (i ≠ .geterr ∨ s.configured = false → val' = val)
end

