-- ==== Sys2Proof/Laws/Decode.lean ====
section
/-! SUPPORT. The fields of a command word: what `commandWord` puts where, and that the fields make the word. -/

namespace Sys2Proof

theorem commandWord_toNat (opc : BitVec 4) (arg : Index) :
    (commandWord opc arg).toNat = opc.toNat * 2 ^ 28 + arg.toNat := by
  have ho := opc.isLt
  have ha := arg.isLt
  simp only [commandWord, BitVec.toNat_or, BitVec.toNat_shiftLeft, BitVec.toNat_setWidth]
  rw [Nat.mod_eq_of_lt (by omega : opc.toNat < 2 ^ 32), Nat.mod_eq_of_lt (by omega : arg.toNat < 2 ^ 32),
    Nat.mod_eq_of_lt (by rw [Nat.shiftLeft_eq]; omega), ← Nat.shiftLeft_add_eq_or_of_lt (by omega), Nat.shiftLeft_eq]

@[simp] theorem commandArg_commandWord (opc : BitVec 4) (arg : Index) : commandArg (commandWord opc arg) = arg := by
  apply BitVec.eq_of_toNat_eq
  have ha := arg.isLt
  simp only [commandArg, BitVec.extractLsb'_toNat, commandWord_toNat, Nat.shiftRight_eq_div_pow]
  omega

@[simp] theorem commandRsv_commandWord (opc : BitVec 4) (arg : Index) : commandRsv (commandWord opc arg) = 0 := by
  apply BitVec.eq_of_toNat_eq
  have ha := arg.isLt
  simp only [commandRsv, BitVec.extractLsb'_toNat, commandWord_toNat, Nat.shiftRight_eq_div_pow]
  simp
  omega

@[simp] theorem commandOpc_commandWord (opc : BitVec 4) (arg : Index) : commandOpc (commandWord opc arg) = opc := by
  apply BitVec.eq_of_toNat_eq
  have ha := arg.isLt
  simp only [commandOpc, BitVec.extractLsb'_toNat, commandWord_toNat, Nat.shiftRight_eq_div_pow]
  omega

/-- A word whose `RSV` is 0 is made of its other two fields (30_encoding R81). -/
theorem commandWord_fields (word : CommandWord) (h : commandRsv word = 0) :
    commandWord (commandOpc word) (commandArg word) = word := by
  apply BitVec.eq_of_toNat_eq
  have hw := word.isLt
  have h := congrArg BitVec.toNat h
  simp only [commandRsv, BitVec.extractLsb'_toNat, Nat.shiftRight_eq_div_pow] at h
  simp only [commandWord_toNat, commandOpc, commandArg, BitVec.extractLsb'_toNat, Nat.shiftRight_eq_div_pow]
  simp at h ⊢
  omega

/-- The operand of a PUSH read back from its ARG (30_encoding R82). -/
@[simp] theorem argLow_setWidth (value : Byte) : argLow (value.setWidth 16) = value := by
  apply BitVec.eq_of_toNat_eq
  have := value.isLt
  simp only [argLow, BitVec.extractLsb'_toNat, BitVec.toNat_setWidth, Nat.shiftRight_eq_div_pow]
  omega

@[simp] theorem argHigh_setWidth (value : Byte) : argHigh (value.setWidth 16) = 0 := by
  apply BitVec.eq_of_toNat_eq
  have := value.isLt
  simp only [argHigh, BitVec.extractLsb'_toNat, BitVec.toNat_setWidth, Nat.shiftRight_eq_div_pow]
  simp
  omega

/-- An ARG with nothing above its low byte is that byte. -/
theorem setWidth_argLow (arg : Index) (h : argHigh arg = 0) : (argLow arg).setWidth 16 = arg := by
  apply BitVec.eq_of_toNat_eq
  have ha := arg.isLt
  have h := congrArg BitVec.toNat h
  simp only [argHigh, BitVec.extractLsb'_toNat, Nat.shiftRight_eq_div_pow] at h
  simp only [argLow, BitVec.extractLsb'_toNat, BitVec.toNat_setWidth, Nat.shiftRight_eq_div_pow]
  simp at h ⊢
  omega

/-! ### The masks of 30_encoding R86 -/

theorem operandMask_bit : ∀ i < 32, (0xFFFF0000#32).getLsbD i = decide (16 ≤ i) := by decide

theorem byteOperandMask_bit : ∀ i < 32, (0xFFFFFF00#32).getLsbD i = decide (8 ≤ i) := by decide

/-- The mask of a command with a 16-bit operand keeps the opcode and the reserved bits. -/
theorem commandWord_and_operandMask (opc : BitVec 4) (arg : Index) :
    commandWord opc arg &&& 0xFFFF0000#32 = commandWord opc 0 := by
  apply BitVec.eq_of_getLsbD_eq
  intro i hi
  rw [BitVec.getLsbD_and, operandMask_bit i hi]
  by_cases h : 16 ≤ i <;> simp [commandWord, h]
  intro; omega

/-- The mask of PUSH keeps all but the low byte. -/
theorem commandWord_and_byteOperandMask (opc : BitVec 4) (value : Byte) :
    commandWord opc (value.setWidth 16) &&& 0xFFFFFF00#32 = commandWord opc 0 := by
  apply BitVec.eq_of_getLsbD_eq
  intro i hi
  rw [BitVec.getLsbD_and, byteOperandMask_bit i hi]
  by_cases h : 8 ≤ i <;> simp [commandWord, h]
  intro; omega

end Sys2Proof
end

