-- ==== Sys2Proof/Laws/State.lean ====
section
/-! SUPPORT. What each update of the state leaves in each field, and that the derived constants and the storage see only the
fields they are made of: true by rfl, for simp. -/

namespace Sys2Proof.Machine

variable (s : State)

/-! ### setByte -/

@[simp] theorem State.setByte_totalSize (i : Nat) (b : Byte) : (s.setByte i b).totalSize = s.totalSize := rfl
@[simp] theorem State.setByte_powerUpFixed (i : Nat) (b : Byte) : (s.setByte i b).powerUpFixed = s.powerUpFixed := rfl
@[simp] theorem State.setByte_storage (i : Nat) (b : Byte) : (s.setByte i b).storage = Memory.write s.powerUpByte s.storage i b := rfl
@[simp] theorem State.setByte_configured (i : Nat) (b : Byte) : (s.setByte i b).configured = s.configured := rfl
@[simp] theorem State.setByte_mirrorSize (i : Nat) (b : Byte) : (s.setByte i b).mirrorSize = s.mirrorSize := rfl
@[simp] theorem State.setByte_writeIndex (i : Nat) (b : Byte) : (s.setByte i b).writeIndex = s.writeIndex := rfl
@[simp] theorem State.setByte_readIndex (i : Nat) (b : Byte) : (s.setByte i b).readIndex = s.readIndex := rfl
@[simp] theorem State.setByte_err (i : Nat) (b : Byte) : (s.setByte i b).err = s.err := rfl
@[simp] theorem State.setByte_wsOpen (i : Nat) (b : Byte) : (s.setByte i b).wsOpen = s.wsOpen := rfl
@[simp] theorem State.setByte_wsLen (i : Nat) (b : Byte) : (s.setByte i b).wsLen = s.wsLen := rfl
@[simp] theorem State.setByte_rsOpen (i : Nat) (b : Byte) : (s.setByte i b).rsOpen = s.rsOpen := rfl
@[simp] theorem State.setByte_rsLen (i : Nat) (b : Byte) : (s.setByte i b).rsLen = s.rsLen := rfl
@[simp] theorem State.setByte_requests (i : Nat) (b : Byte) : (s.setByte i b).requests = s.requests := rfl
@[simp] theorem State.setByte_responses (i : Nat) (b : Byte) : (s.setByte i b).responses = s.responses := rfl
@[simp] theorem State.setByte_spanReplies (i : Nat) (b : Byte) : (s.setByte i b).spanReplies = s.spanReplies := rfl

/-! ### setWrite -/

@[simp] theorem State.setWrite_totalSize (n : Nat) : (s.setWrite n).totalSize = s.totalSize := rfl
@[simp] theorem State.setWrite_powerUpFixed (n : Nat) : (s.setWrite n).powerUpFixed = s.powerUpFixed := rfl
@[simp] theorem State.setWrite_storage (n : Nat) : (s.setWrite n).storage = s.storage := rfl
@[simp] theorem State.setWrite_configured (n : Nat) : (s.setWrite n).configured = s.configured := rfl
@[simp] theorem State.setWrite_mirrorSize (n : Nat) : (s.setWrite n).mirrorSize = s.mirrorSize := rfl
@[simp] theorem State.setWrite_writeIndex (n : Nat) : (s.setWrite n).writeIndex = toIndex n := rfl
@[simp] theorem State.setWrite_readIndex (n : Nat) : (s.setWrite n).readIndex = s.readIndex := rfl
@[simp] theorem State.setWrite_err (n : Nat) : (s.setWrite n).err = s.err := rfl
@[simp] theorem State.setWrite_wsOpen (n : Nat) : (s.setWrite n).wsOpen = s.wsOpen := rfl
@[simp] theorem State.setWrite_wsLen (n : Nat) : (s.setWrite n).wsLen = s.wsLen := rfl
@[simp] theorem State.setWrite_rsOpen (n : Nat) : (s.setWrite n).rsOpen = s.rsOpen := rfl
@[simp] theorem State.setWrite_rsLen (n : Nat) : (s.setWrite n).rsLen = s.rsLen := rfl
@[simp] theorem State.setWrite_requests (n : Nat) : (s.setWrite n).requests = s.requests := rfl
@[simp] theorem State.setWrite_responses (n : Nat) : (s.setWrite n).responses = s.responses := rfl
@[simp] theorem State.setWrite_spanReplies (n : Nat) : (s.setWrite n).spanReplies = s.spanReplies := rfl

/-! ### setRead -/

@[simp] theorem State.setRead_totalSize (n : Nat) : (s.setRead n).totalSize = s.totalSize := rfl
@[simp] theorem State.setRead_powerUpFixed (n : Nat) : (s.setRead n).powerUpFixed = s.powerUpFixed := rfl
@[simp] theorem State.setRead_storage (n : Nat) : (s.setRead n).storage = s.storage := rfl
@[simp] theorem State.setRead_configured (n : Nat) : (s.setRead n).configured = s.configured := rfl
@[simp] theorem State.setRead_mirrorSize (n : Nat) : (s.setRead n).mirrorSize = s.mirrorSize := rfl
@[simp] theorem State.setRead_writeIndex (n : Nat) : (s.setRead n).writeIndex = s.writeIndex := rfl
@[simp] theorem State.setRead_readIndex (n : Nat) : (s.setRead n).readIndex = toIndex n := rfl
@[simp] theorem State.setRead_err (n : Nat) : (s.setRead n).err = s.err := rfl
@[simp] theorem State.setRead_wsOpen (n : Nat) : (s.setRead n).wsOpen = s.wsOpen := rfl
@[simp] theorem State.setRead_wsLen (n : Nat) : (s.setRead n).wsLen = s.wsLen := rfl
@[simp] theorem State.setRead_rsOpen (n : Nat) : (s.setRead n).rsOpen = s.rsOpen := rfl
@[simp] theorem State.setRead_rsLen (n : Nat) : (s.setRead n).rsLen = s.rsLen := rfl
@[simp] theorem State.setRead_requests (n : Nat) : (s.setRead n).requests = s.requests := rfl
@[simp] theorem State.setRead_responses (n : Nat) : (s.setRead n).responses = s.responses := rfl
@[simp] theorem State.setRead_spanReplies (n : Nat) : (s.setRead n).spanReplies = s.spanReplies := rfl

/-! ### openWrite -/

@[simp] theorem State.openWrite_totalSize (g : Nat) : (s.openWrite g).totalSize = s.totalSize := rfl
@[simp] theorem State.openWrite_powerUpFixed (g : Nat) : (s.openWrite g).powerUpFixed = s.powerUpFixed := rfl
@[simp] theorem State.openWrite_storage (g : Nat) : (s.openWrite g).storage = s.storage := rfl
@[simp] theorem State.openWrite_configured (g : Nat) : (s.openWrite g).configured = s.configured := rfl
@[simp] theorem State.openWrite_mirrorSize (g : Nat) : (s.openWrite g).mirrorSize = s.mirrorSize := rfl
@[simp] theorem State.openWrite_writeIndex (g : Nat) : (s.openWrite g).writeIndex = s.writeIndex := rfl
@[simp] theorem State.openWrite_readIndex (g : Nat) : (s.openWrite g).readIndex = s.readIndex := rfl
@[simp] theorem State.openWrite_err (g : Nat) : (s.openWrite g).err = s.err := rfl
@[simp] theorem State.openWrite_wsOpen (g : Nat) : (s.openWrite g).wsOpen = true := rfl
@[simp] theorem State.openWrite_wsLen (g : Nat) : (s.openWrite g).wsLen = toIndex g := rfl
@[simp] theorem State.openWrite_rsOpen (g : Nat) : (s.openWrite g).rsOpen = s.rsOpen := rfl
@[simp] theorem State.openWrite_rsLen (g : Nat) : (s.openWrite g).rsLen = s.rsLen := rfl
@[simp] theorem State.openWrite_requests (g : Nat) : (s.openWrite g).requests = s.requests := rfl
@[simp] theorem State.openWrite_responses (g : Nat) : (s.openWrite g).responses = s.responses := rfl
@[simp] theorem State.openWrite_spanReplies (g : Nat) : (s.openWrite g).spanReplies = s.spanReplies := rfl

/-! ### closeWrite -/

@[simp] theorem State.closeWrite_totalSize : s.closeWrite.totalSize = s.totalSize := rfl
@[simp] theorem State.closeWrite_powerUpFixed : s.closeWrite.powerUpFixed = s.powerUpFixed := rfl
@[simp] theorem State.closeWrite_storage : s.closeWrite.storage = s.storage := rfl
@[simp] theorem State.closeWrite_configured : s.closeWrite.configured = s.configured := rfl
@[simp] theorem State.closeWrite_mirrorSize : s.closeWrite.mirrorSize = s.mirrorSize := rfl
@[simp] theorem State.closeWrite_writeIndex : s.closeWrite.writeIndex = s.writeIndex := rfl
@[simp] theorem State.closeWrite_readIndex : s.closeWrite.readIndex = s.readIndex := rfl
@[simp] theorem State.closeWrite_err : s.closeWrite.err = s.err := rfl
@[simp] theorem State.closeWrite_wsOpen : s.closeWrite.wsOpen = false := rfl
@[simp] theorem State.closeWrite_wsLen : s.closeWrite.wsLen = 0 := rfl
@[simp] theorem State.closeWrite_rsOpen : s.closeWrite.rsOpen = s.rsOpen := rfl
@[simp] theorem State.closeWrite_rsLen : s.closeWrite.rsLen = s.rsLen := rfl
@[simp] theorem State.closeWrite_requests : s.closeWrite.requests = s.requests := rfl
@[simp] theorem State.closeWrite_responses : s.closeWrite.responses = s.responses := rfl
@[simp] theorem State.closeWrite_spanReplies : s.closeWrite.spanReplies = s.spanReplies := rfl

/-! ### openRead -/

@[simp] theorem State.openRead_totalSize (g : Nat) : (s.openRead g).totalSize = s.totalSize := rfl
@[simp] theorem State.openRead_powerUpFixed (g : Nat) : (s.openRead g).powerUpFixed = s.powerUpFixed := rfl
@[simp] theorem State.openRead_storage (g : Nat) : (s.openRead g).storage = s.storage := rfl
@[simp] theorem State.openRead_configured (g : Nat) : (s.openRead g).configured = s.configured := rfl
@[simp] theorem State.openRead_mirrorSize (g : Nat) : (s.openRead g).mirrorSize = s.mirrorSize := rfl
@[simp] theorem State.openRead_writeIndex (g : Nat) : (s.openRead g).writeIndex = s.writeIndex := rfl
@[simp] theorem State.openRead_readIndex (g : Nat) : (s.openRead g).readIndex = s.readIndex := rfl
@[simp] theorem State.openRead_err (g : Nat) : (s.openRead g).err = s.err := rfl
@[simp] theorem State.openRead_wsOpen (g : Nat) : (s.openRead g).wsOpen = s.wsOpen := rfl
@[simp] theorem State.openRead_wsLen (g : Nat) : (s.openRead g).wsLen = s.wsLen := rfl
@[simp] theorem State.openRead_rsOpen (g : Nat) : (s.openRead g).rsOpen = true := rfl
@[simp] theorem State.openRead_rsLen (g : Nat) : (s.openRead g).rsLen = toIndex g := rfl
@[simp] theorem State.openRead_requests (g : Nat) : (s.openRead g).requests = s.requests := rfl
@[simp] theorem State.openRead_responses (g : Nat) : (s.openRead g).responses = s.responses := rfl
@[simp] theorem State.openRead_spanReplies (g : Nat) : (s.openRead g).spanReplies = s.spanReplies := rfl

/-! ### closeRead -/

@[simp] theorem State.closeRead_totalSize : s.closeRead.totalSize = s.totalSize := rfl
@[simp] theorem State.closeRead_powerUpFixed : s.closeRead.powerUpFixed = s.powerUpFixed := rfl
@[simp] theorem State.closeRead_storage : s.closeRead.storage = s.storage := rfl
@[simp] theorem State.closeRead_configured : s.closeRead.configured = s.configured := rfl
@[simp] theorem State.closeRead_mirrorSize : s.closeRead.mirrorSize = s.mirrorSize := rfl
@[simp] theorem State.closeRead_writeIndex : s.closeRead.writeIndex = s.writeIndex := rfl
@[simp] theorem State.closeRead_readIndex : s.closeRead.readIndex = s.readIndex := rfl
@[simp] theorem State.closeRead_err : s.closeRead.err = s.err := rfl
@[simp] theorem State.closeRead_wsOpen : s.closeRead.wsOpen = s.wsOpen := rfl
@[simp] theorem State.closeRead_wsLen : s.closeRead.wsLen = s.wsLen := rfl
@[simp] theorem State.closeRead_rsOpen : s.closeRead.rsOpen = false := rfl
@[simp] theorem State.closeRead_rsLen : s.closeRead.rsLen = 0 := rfl
@[simp] theorem State.closeRead_requests : s.closeRead.requests = s.requests := rfl
@[simp] theorem State.closeRead_responses : s.closeRead.responses = s.responses := rfl
@[simp] theorem State.closeRead_spanReplies : s.closeRead.spanReplies = s.spanReplies := rfl

/-! ### emit -/

@[simp] theorem State.emit_totalSize (word : ResponseWord) : (s.emit word).totalSize = s.totalSize := rfl
@[simp] theorem State.emit_powerUpFixed (word : ResponseWord) : (s.emit word).powerUpFixed = s.powerUpFixed := rfl
@[simp] theorem State.emit_storage (word : ResponseWord) : (s.emit word).storage = s.storage := rfl
@[simp] theorem State.emit_configured (word : ResponseWord) : (s.emit word).configured = s.configured := rfl
@[simp] theorem State.emit_mirrorSize (word : ResponseWord) : (s.emit word).mirrorSize = s.mirrorSize := rfl
@[simp] theorem State.emit_writeIndex (word : ResponseWord) : (s.emit word).writeIndex = s.writeIndex := rfl
@[simp] theorem State.emit_readIndex (word : ResponseWord) : (s.emit word).readIndex = s.readIndex := rfl
@[simp] theorem State.emit_err (word : ResponseWord) : (s.emit word).err = s.err := rfl
@[simp] theorem State.emit_wsOpen (word : ResponseWord) : (s.emit word).wsOpen = s.wsOpen := rfl
@[simp] theorem State.emit_wsLen (word : ResponseWord) : (s.emit word).wsLen = s.wsLen := rfl
@[simp] theorem State.emit_rsOpen (word : ResponseWord) : (s.emit word).rsOpen = s.rsOpen := rfl
@[simp] theorem State.emit_rsLen (word : ResponseWord) : (s.emit word).rsLen = s.rsLen := rfl
@[simp] theorem State.emit_requests (word : ResponseWord) : (s.emit word).requests = s.requests := rfl
@[simp] theorem State.emit_responses (word : ResponseWord) : (s.emit word).responses = s.responses ++ [word] := rfl
@[simp] theorem State.emit_spanReplies (word : ResponseWord) : (s.emit word).spanReplies = s.spanReplies := rfl

/-! ### reply -/

@[simp] theorem State.reply_totalSize (answer : SpanReply) : (s.reply answer).totalSize = s.totalSize := rfl
@[simp] theorem State.reply_powerUpFixed (answer : SpanReply) : (s.reply answer).powerUpFixed = s.powerUpFixed := rfl
@[simp] theorem State.reply_storage (answer : SpanReply) : (s.reply answer).storage = s.storage := rfl
@[simp] theorem State.reply_configured (answer : SpanReply) : (s.reply answer).configured = s.configured := rfl
@[simp] theorem State.reply_mirrorSize (answer : SpanReply) : (s.reply answer).mirrorSize = s.mirrorSize := rfl
@[simp] theorem State.reply_writeIndex (answer : SpanReply) : (s.reply answer).writeIndex = s.writeIndex := rfl
@[simp] theorem State.reply_readIndex (answer : SpanReply) : (s.reply answer).readIndex = s.readIndex := rfl
@[simp] theorem State.reply_err (answer : SpanReply) : (s.reply answer).err = s.err := rfl
@[simp] theorem State.reply_wsOpen (answer : SpanReply) : (s.reply answer).wsOpen = s.wsOpen := rfl
@[simp] theorem State.reply_wsLen (answer : SpanReply) : (s.reply answer).wsLen = s.wsLen := rfl
@[simp] theorem State.reply_rsOpen (answer : SpanReply) : (s.reply answer).rsOpen = s.rsOpen := rfl
@[simp] theorem State.reply_rsLen (answer : SpanReply) : (s.reply answer).rsLen = s.rsLen := rfl
@[simp] theorem State.reply_requests (answer : SpanReply) : (s.reply answer).requests = s.requests := rfl
@[simp] theorem State.reply_responses (answer : SpanReply) : (s.reply answer).responses = s.responses := rfl
@[simp] theorem State.reply_spanReplies (answer : SpanReply) : (s.reply answer).spanReplies = s.spanReplies ++ [answer] := rfl

/-! ### raiseFault -/

@[simp] theorem State.raiseFault_totalSize (f : ErrorCode) : (s.raiseFault f).totalSize = s.totalSize := rfl
@[simp] theorem State.raiseFault_powerUpFixed (f : ErrorCode) : (s.raiseFault f).powerUpFixed = s.powerUpFixed := rfl
@[simp] theorem State.raiseFault_storage (f : ErrorCode) : (s.raiseFault f).storage = s.storage := rfl
@[simp] theorem State.raiseFault_configured (f : ErrorCode) : (s.raiseFault f).configured = s.configured := rfl
@[simp] theorem State.raiseFault_mirrorSize (f : ErrorCode) : (s.raiseFault f).mirrorSize = s.mirrorSize := rfl
@[simp] theorem State.raiseFault_writeIndex (f : ErrorCode) : (s.raiseFault f).writeIndex = s.writeIndex := rfl
@[simp] theorem State.raiseFault_readIndex (f : ErrorCode) : (s.raiseFault f).readIndex = s.readIndex := rfl
@[simp] theorem State.raiseFault_err (f : ErrorCode) : (s.raiseFault f).err = f := rfl
@[simp] theorem State.raiseFault_wsOpen (f : ErrorCode) : (s.raiseFault f).wsOpen = s.wsOpen := rfl
@[simp] theorem State.raiseFault_wsLen (f : ErrorCode) : (s.raiseFault f).wsLen = s.wsLen := rfl
@[simp] theorem State.raiseFault_rsOpen (f : ErrorCode) : (s.raiseFault f).rsOpen = s.rsOpen := rfl
@[simp] theorem State.raiseFault_rsLen (f : ErrorCode) : (s.raiseFault f).rsLen = s.rsLen := rfl
@[simp] theorem State.raiseFault_requests (f : ErrorCode) : (s.raiseFault f).requests = s.requests := rfl
@[simp] theorem State.raiseFault_responses (f : ErrorCode) : (s.raiseFault f).responses = s.responses := rfl
@[simp] theorem State.raiseFault_spanReplies (f : ErrorCode) : (s.raiseFault f).spanReplies = s.spanReplies := rfl

/-! ### construct -/

@[simp] theorem State.construct_totalSize (m0 : Index) : (s.construct m0).totalSize = s.totalSize := rfl
@[simp] theorem State.construct_powerUpFixed (m0 : Index) : (s.construct m0).powerUpFixed = s.powerUpFixed := rfl
@[simp] theorem State.construct_storage (m0 : Index) : (s.construct m0).storage = s.storage := rfl
@[simp] theorem State.construct_configured (m0 : Index) : (s.construct m0).configured = true := rfl
@[simp] theorem State.construct_mirrorSize (m0 : Index) : (s.construct m0).mirrorSize = m0 := rfl
@[simp] theorem State.construct_writeIndex (m0 : Index) : (s.construct m0).writeIndex = 0 := rfl
@[simp] theorem State.construct_readIndex (m0 : Index) : (s.construct m0).readIndex = 0 := rfl
@[simp] theorem State.construct_err (m0 : Index) : (s.construct m0).err = .none := rfl
@[simp] theorem State.construct_wsOpen (m0 : Index) : (s.construct m0).wsOpen = false := rfl
@[simp] theorem State.construct_wsLen (m0 : Index) : (s.construct m0).wsLen = 0 := rfl
@[simp] theorem State.construct_rsOpen (m0 : Index) : (s.construct m0).rsOpen = false := rfl
@[simp] theorem State.construct_rsLen (m0 : Index) : (s.construct m0).rsLen = 0 := rfl
@[simp] theorem State.construct_requests (m0 : Index) : (s.construct m0).requests = s.requests := rfl
@[simp] theorem State.construct_responses (m0 : Index) : (s.construct m0).responses = s.responses := rfl
@[simp] theorem State.construct_spanReplies (m0 : Index) : (s.construct m0).spanReplies = s.spanReplies := rfl

/-! ### hardwareReset -/

@[simp] theorem hardwareReset_totalSize : (hardwareReset s).totalSize = s.totalSize := rfl
@[simp] theorem hardwareReset_powerUpFixed : (hardwareReset s).powerUpFixed = s.powerUpFixed := rfl
@[simp] theorem hardwareReset_storage : (hardwareReset s).storage = s.storage := rfl
@[simp] theorem hardwareReset_configured : (hardwareReset s).configured = false := rfl
@[simp] theorem hardwareReset_mirrorSize : (hardwareReset s).mirrorSize = 0 := rfl
@[simp] theorem hardwareReset_writeIndex : (hardwareReset s).writeIndex = 0 := rfl
@[simp] theorem hardwareReset_readIndex : (hardwareReset s).readIndex = 0 := rfl
@[simp] theorem hardwareReset_err : (hardwareReset s).err = .none := rfl
@[simp] theorem hardwareReset_wsOpen : (hardwareReset s).wsOpen = false := rfl
@[simp] theorem hardwareReset_wsLen : (hardwareReset s).wsLen = 0 := rfl
@[simp] theorem hardwareReset_rsOpen : (hardwareReset s).rsOpen = false := rfl
@[simp] theorem hardwareReset_rsLen : (hardwareReset s).rsLen = 0 := rfl
@[simp] theorem hardwareReset_requests : (hardwareReset s).requests = s.requests := rfl
@[simp] theorem hardwareReset_responses : (hardwareReset s).responses = s.responses := rfl
@[simp] theorem hardwareReset_spanReplies : (hardwareReset s).spanReplies = s.spanReplies := rfl

/-! ### The derived quantities under the updates -/

@[simp] theorem State.setByte_total (i : Nat) (b : Byte) : (s.setByte i b).total = s.total := rfl
@[simp] theorem State.setByte_m (i : Nat) (b : Byte) : (s.setByte i b).m = s.m := rfl
@[simp] theorem State.setByte_w (i : Nat) (b : Byte) : (s.setByte i b).w = s.w := rfl
@[simp] theorem State.setByte_r (i : Nat) (b : Byte) : (s.setByte i b).r = s.r := rfl
@[simp] theorem State.setByte_cap (i : Nat) (b : Byte) : (s.setByte i b).cap = s.cap := rfl
@[simp] theorem State.setByte_bl (i : Nat) (b : Byte) : (s.setByte i b).bl = s.bl := rfl
@[simp] theorem State.setByte_ll (i : Nat) (b : Byte) : (s.setByte i b).ll = s.ll := rfl
@[simp] theorem State.setByte_dist (i : Nat) (b : Byte) : (s.setByte i b).dist = s.dist := rfl
@[simp] theorem State.setByte_free (i : Nat) (b : Byte) : (s.setByte i b).free = s.free := rfl
@[simp] theorem State.setByte_powerUpByte (i : Nat) (b : Byte) : (s.setByte i b).powerUpByte = s.powerUpByte := rfl
@[simp] theorem State.setWrite_total (n : Nat) : (s.setWrite n).total = s.total := rfl
@[simp] theorem State.setWrite_m (n : Nat) : (s.setWrite n).m = s.m := rfl
@[simp] theorem State.setWrite_r (n : Nat) : (s.setWrite n).r = s.r := rfl
@[simp] theorem State.setWrite_cap (n : Nat) : (s.setWrite n).cap = s.cap := rfl
@[simp] theorem State.setWrite_bl (n : Nat) : (s.setWrite n).bl = s.bl := rfl
@[simp] theorem State.setWrite_ll (n : Nat) : (s.setWrite n).ll = s.ll := rfl
@[simp] theorem State.setWrite_powerUpByte (n : Nat) : (s.setWrite n).powerUpByte = s.powerUpByte := rfl
@[simp] theorem State.setWrite_byteAt (n : Nat) : (s.setWrite n).byteAt = s.byteAt := rfl
@[simp] theorem State.setRead_total (n : Nat) : (s.setRead n).total = s.total := rfl
@[simp] theorem State.setRead_m (n : Nat) : (s.setRead n).m = s.m := rfl
@[simp] theorem State.setRead_w (n : Nat) : (s.setRead n).w = s.w := rfl
@[simp] theorem State.setRead_cap (n : Nat) : (s.setRead n).cap = s.cap := rfl
@[simp] theorem State.setRead_bl (n : Nat) : (s.setRead n).bl = s.bl := rfl
@[simp] theorem State.setRead_ll (n : Nat) : (s.setRead n).ll = s.ll := rfl
@[simp] theorem State.setRead_powerUpByte (n : Nat) : (s.setRead n).powerUpByte = s.powerUpByte := rfl
@[simp] theorem State.setRead_byteAt (n : Nat) : (s.setRead n).byteAt = s.byteAt := rfl
@[simp] theorem State.openWrite_total (g : Nat) : (s.openWrite g).total = s.total := rfl
@[simp] theorem State.openWrite_m (g : Nat) : (s.openWrite g).m = s.m := rfl
@[simp] theorem State.openWrite_w (g : Nat) : (s.openWrite g).w = s.w := rfl
@[simp] theorem State.openWrite_r (g : Nat) : (s.openWrite g).r = s.r := rfl
@[simp] theorem State.openWrite_cap (g : Nat) : (s.openWrite g).cap = s.cap := rfl
@[simp] theorem State.openWrite_bl (g : Nat) : (s.openWrite g).bl = s.bl := rfl
@[simp] theorem State.openWrite_ll (g : Nat) : (s.openWrite g).ll = s.ll := rfl
@[simp] theorem State.openWrite_dist (g : Nat) : (s.openWrite g).dist = s.dist := rfl
@[simp] theorem State.openWrite_free (g : Nat) : (s.openWrite g).free = s.free := rfl
@[simp] theorem State.openWrite_powerUpByte (g : Nat) : (s.openWrite g).powerUpByte = s.powerUpByte := rfl
@[simp] theorem State.openWrite_byteAt (g : Nat) : (s.openWrite g).byteAt = s.byteAt := rfl
@[simp] theorem State.closeWrite_total : s.closeWrite.total = s.total := rfl
@[simp] theorem State.closeWrite_m : s.closeWrite.m = s.m := rfl
@[simp] theorem State.closeWrite_w : s.closeWrite.w = s.w := rfl
@[simp] theorem State.closeWrite_r : s.closeWrite.r = s.r := rfl
@[simp] theorem State.closeWrite_cap : s.closeWrite.cap = s.cap := rfl
@[simp] theorem State.closeWrite_bl : s.closeWrite.bl = s.bl := rfl
@[simp] theorem State.closeWrite_ll : s.closeWrite.ll = s.ll := rfl
@[simp] theorem State.closeWrite_dist : s.closeWrite.dist = s.dist := rfl
@[simp] theorem State.closeWrite_free : s.closeWrite.free = s.free := rfl
@[simp] theorem State.closeWrite_powerUpByte : s.closeWrite.powerUpByte = s.powerUpByte := rfl
@[simp] theorem State.closeWrite_byteAt : s.closeWrite.byteAt = s.byteAt := rfl
@[simp] theorem State.openRead_total (g : Nat) : (s.openRead g).total = s.total := rfl
@[simp] theorem State.openRead_m (g : Nat) : (s.openRead g).m = s.m := rfl
@[simp] theorem State.openRead_w (g : Nat) : (s.openRead g).w = s.w := rfl
@[simp] theorem State.openRead_r (g : Nat) : (s.openRead g).r = s.r := rfl
@[simp] theorem State.openRead_cap (g : Nat) : (s.openRead g).cap = s.cap := rfl
@[simp] theorem State.openRead_bl (g : Nat) : (s.openRead g).bl = s.bl := rfl
@[simp] theorem State.openRead_ll (g : Nat) : (s.openRead g).ll = s.ll := rfl
@[simp] theorem State.openRead_dist (g : Nat) : (s.openRead g).dist = s.dist := rfl
@[simp] theorem State.openRead_free (g : Nat) : (s.openRead g).free = s.free := rfl
@[simp] theorem State.openRead_powerUpByte (g : Nat) : (s.openRead g).powerUpByte = s.powerUpByte := rfl
@[simp] theorem State.openRead_byteAt (g : Nat) : (s.openRead g).byteAt = s.byteAt := rfl
@[simp] theorem State.closeRead_total : s.closeRead.total = s.total := rfl
@[simp] theorem State.closeRead_m : s.closeRead.m = s.m := rfl
@[simp] theorem State.closeRead_w : s.closeRead.w = s.w := rfl
@[simp] theorem State.closeRead_r : s.closeRead.r = s.r := rfl
@[simp] theorem State.closeRead_cap : s.closeRead.cap = s.cap := rfl
@[simp] theorem State.closeRead_bl : s.closeRead.bl = s.bl := rfl
@[simp] theorem State.closeRead_ll : s.closeRead.ll = s.ll := rfl
@[simp] theorem State.closeRead_dist : s.closeRead.dist = s.dist := rfl
@[simp] theorem State.closeRead_free : s.closeRead.free = s.free := rfl
@[simp] theorem State.closeRead_powerUpByte : s.closeRead.powerUpByte = s.powerUpByte := rfl
@[simp] theorem State.closeRead_byteAt : s.closeRead.byteAt = s.byteAt := rfl
@[simp] theorem State.emit_total (word : ResponseWord) : (s.emit word).total = s.total := rfl
@[simp] theorem State.emit_m (word : ResponseWord) : (s.emit word).m = s.m := rfl
@[simp] theorem State.emit_w (word : ResponseWord) : (s.emit word).w = s.w := rfl
@[simp] theorem State.emit_r (word : ResponseWord) : (s.emit word).r = s.r := rfl
@[simp] theorem State.emit_cap (word : ResponseWord) : (s.emit word).cap = s.cap := rfl
@[simp] theorem State.emit_bl (word : ResponseWord) : (s.emit word).bl = s.bl := rfl
@[simp] theorem State.emit_ll (word : ResponseWord) : (s.emit word).ll = s.ll := rfl
@[simp] theorem State.emit_dist (word : ResponseWord) : (s.emit word).dist = s.dist := rfl
@[simp] theorem State.emit_free (word : ResponseWord) : (s.emit word).free = s.free := rfl
@[simp] theorem State.emit_powerUpByte (word : ResponseWord) : (s.emit word).powerUpByte = s.powerUpByte := rfl
@[simp] theorem State.emit_byteAt (word : ResponseWord) : (s.emit word).byteAt = s.byteAt := rfl
@[simp] theorem State.reply_total (answer : SpanReply) : (s.reply answer).total = s.total := rfl
@[simp] theorem State.reply_m (answer : SpanReply) : (s.reply answer).m = s.m := rfl
@[simp] theorem State.reply_w (answer : SpanReply) : (s.reply answer).w = s.w := rfl
@[simp] theorem State.reply_r (answer : SpanReply) : (s.reply answer).r = s.r := rfl
@[simp] theorem State.reply_cap (answer : SpanReply) : (s.reply answer).cap = s.cap := rfl
@[simp] theorem State.reply_bl (answer : SpanReply) : (s.reply answer).bl = s.bl := rfl
@[simp] theorem State.reply_ll (answer : SpanReply) : (s.reply answer).ll = s.ll := rfl
@[simp] theorem State.reply_dist (answer : SpanReply) : (s.reply answer).dist = s.dist := rfl
@[simp] theorem State.reply_free (answer : SpanReply) : (s.reply answer).free = s.free := rfl
@[simp] theorem State.reply_powerUpByte (answer : SpanReply) : (s.reply answer).powerUpByte = s.powerUpByte := rfl
@[simp] theorem State.reply_byteAt (answer : SpanReply) : (s.reply answer).byteAt = s.byteAt := rfl
@[simp] theorem State.raiseFault_total (f : ErrorCode) : (s.raiseFault f).total = s.total := rfl
@[simp] theorem State.raiseFault_m (f : ErrorCode) : (s.raiseFault f).m = s.m := rfl
@[simp] theorem State.raiseFault_w (f : ErrorCode) : (s.raiseFault f).w = s.w := rfl
@[simp] theorem State.raiseFault_r (f : ErrorCode) : (s.raiseFault f).r = s.r := rfl
@[simp] theorem State.raiseFault_cap (f : ErrorCode) : (s.raiseFault f).cap = s.cap := rfl
@[simp] theorem State.raiseFault_bl (f : ErrorCode) : (s.raiseFault f).bl = s.bl := rfl
@[simp] theorem State.raiseFault_ll (f : ErrorCode) : (s.raiseFault f).ll = s.ll := rfl
@[simp] theorem State.raiseFault_dist (f : ErrorCode) : (s.raiseFault f).dist = s.dist := rfl
@[simp] theorem State.raiseFault_free (f : ErrorCode) : (s.raiseFault f).free = s.free := rfl
@[simp] theorem State.raiseFault_powerUpByte (f : ErrorCode) : (s.raiseFault f).powerUpByte = s.powerUpByte := rfl
@[simp] theorem State.raiseFault_byteAt (f : ErrorCode) : (s.raiseFault f).byteAt = s.byteAt := rfl
@[simp] theorem State.construct_total (m0 : Index) : (s.construct m0).total = s.total := rfl
@[simp] theorem State.construct_powerUpByte (m0 : Index) : (s.construct m0).powerUpByte = s.powerUpByte := rfl
@[simp] theorem State.construct_byteAt (m0 : Index) : (s.construct m0).byteAt = s.byteAt := rfl
@[simp] theorem hardwareReset_byteAt : (hardwareReset s).byteAt = s.byteAt := rfl
@[simp] theorem hardwareReset_total : (hardwareReset s).total = s.total := rfl
@[simp] theorem hardwareReset_powerUpByte : (hardwareReset s).powerUpByte = s.powerUpByte := rfl

end Sys2Proof.Machine
end

