-- ==== Sys2Proof/Laws/Memory.lean ====
section
/-! SUPPORT. The laws of the storage: a read after a write, the canonical form kept by every write, and two storages in
canonical form with the same bytes are the same data. -/

namespace Sys2Proof.Machine

variable {base : Nat → Byte} {mem : Memory} {a c : Nat} {b : Byte}

/-! ### Lookup -/

@[simp] theorem Memory.lookup_nil : Memory.lookup [] a = Option.none := rfl

@[simp] theorem Memory.lookup_cons {d : Host.Cell} :
    Memory.lookup (d :: mem) a = if d.1 = a then some d.2 else Memory.lookup mem a := rfl

theorem Memory.lookup_erase : Memory.lookup (Memory.erase mem a) c = if c = a then Option.none else Memory.lookup mem c := by
  induction mem with
  | nil => simp [Memory.erase]
  | cons d rest ih =>
    unfold Memory.erase at ih ⊢
    by_cases hd : d.1 = a
    · rw [List.filter_cons_of_neg (by simp [hd]), ih, Memory.lookup_cons]
      by_cases hc : c = a <;> simp [hc, hd]
      omega
    · rw [List.filter_cons_of_pos (by simp [hd]), Memory.lookup_cons, Memory.lookup_cons, ih]
      by_cases hc : c = a <;> simp [hc, hd]

theorem Memory.lookup_insert : Memory.lookup (Memory.insert mem a b) c = if c = a then some b else Memory.lookup mem c := by
  induction mem with
  | nil => simp [Memory.insert, eq_comm]
  | cons d rest ih =>
    obtain ⟨k, v⟩ := d
    simp only [Memory.insert]
    split_ifs <;> simp_all <;> grind

/-! ### Read after write -/

theorem Memory.read_write : Memory.read base (Memory.write base mem a b) c = if c = a then b else Memory.read base mem c := by
  unfold Memory.read Memory.write
  by_cases h : b = base a
  · simp only [h, if_true, Memory.lookup_erase]; split_ifs with hc <;> simp [hc]
  · simp only [h, if_false, Memory.lookup_insert]; split_ifs <;> simp

@[simp] theorem Memory.read_nil : Memory.read base [] a = base a := rfl

/-! ### The canonical form -/

theorem Memory.mem_insert {d : Host.Cell} (h : d ∈ Memory.insert mem a b) : d = (a, b) ∨ d ∈ mem := by
  induction mem with
  | nil => simpa [Memory.insert] using h
  | cons e rest ih =>
    obtain ⟨k, v⟩ := e
    simp only [Memory.insert] at h
    split_ifs at h <;> simp only [List.mem_cons] at h ⊢ <;> grind

theorem Memory.mem_write {d : Host.Cell} (h : d ∈ Memory.write base mem a b) : d = (a, b) ∨ d ∈ mem := by
  unfold Memory.write at h
  split_ifs at h
  · exact .inr (List.mem_of_mem_filter h)
  · exact Memory.mem_insert h

theorem Memory.rising_cons {d : Host.Cell} :
    Memory.rising (d :: mem) = true ↔ (∀ e ∈ mem, d.1 < e.1) ∧ Memory.rising mem = true := by
  simp [Memory.rising]

theorem Memory.rising_erase (h : Memory.rising mem = true) : Memory.rising (Memory.erase mem a) = true := by
  induction mem with
  | nil => exact h
  | cons d rest ih =>
    rw [Memory.rising_cons] at h
    have ih := ih h.2
    simp only [Memory.erase, List.filter_cons] at ih ⊢
    split
    · exact Memory.rising_cons.2 ⟨fun e he => h.1 e (List.mem_of_mem_filter he), ih⟩
    · exact ih

theorem Memory.rising_insert (h : Memory.rising mem = true) : Memory.rising (Memory.insert mem a b) = true := by
  induction mem with
  | nil => rfl
  | cons d rest ih =>
    obtain ⟨k, v⟩ := d
    rw [Memory.rising_cons] at h
    simp only [Memory.insert]
    split_ifs with h1 h2
    · exact Memory.rising_cons.2 ⟨by simp only [List.mem_cons]; grind, Memory.rising_cons.2 h⟩
    · exact Memory.rising_cons.2 ⟨by grind, h.2⟩
    · refine Memory.rising_cons.2 ⟨fun e he => ?_, ih h.2⟩
      rcases Memory.mem_insert he with rfl | he
      · simp only; omega
      · exact h.1 e he

theorem Memory.wf_iff :
    Memory.wf base mem = true ↔ Memory.rising mem = true ∧ ∀ d ∈ mem, d.2 ≠ base d.1 := by
  simp [Memory.wf]

/-- The empty storage, that of `State.reset`, is in canonical form. -/
@[simp] theorem Memory.wf_nil : Memory.wf base [] = true := rfl

/-- Every write keeps the canonical form. -/
theorem Memory.wf_write (h : Memory.wf base mem = true) : Memory.wf base (Memory.write base mem a b) = true := by
  rw [Memory.wf_iff] at h ⊢
  unfold Memory.write
  split_ifs with hb
  · exact ⟨Memory.rising_erase h.1, fun d hd => h.2 d (List.mem_of_mem_filter hd)⟩
  · refine ⟨Memory.rising_insert h.1, fun d hd => ?_⟩
    rcases Memory.mem_insert hd with rfl | hd
    · exact hb
    · exact h.2 d hd

theorem Memory.lookup_none_of_lt (h : ∀ d ∈ mem, a < d.1) : Memory.lookup mem a = Option.none := by
  induction mem with
  | nil => rfl
  | cons d rest ih =>
    have hd := h d (by simp)
    rw [Memory.lookup_cons, if_neg (by omega)]
    exact ih fun e he => h e (by simp [he])

theorem Memory.read_ne_base_of_mem {d : Host.Cell} (h : Memory.wf base mem = true) (hd : d ∈ mem) :
    Memory.read base mem d.1 = d.2 := by
  rw [Memory.wf_iff] at h
  obtain ⟨h, -⟩ := h
  induction mem with
  | nil => cases hd
  | cons e rest ih =>
    rw [Memory.rising_cons] at h
    rcases List.mem_cons.1 hd with rfl | hd
    · simp [Memory.read]
    · have := h.1 d hd
      simpa [Memory.read, show ¬ e.1 = d.1 by omega] using ih hd h.2

/-- Two storages in canonical form that read alike everywhere are the same list. -/
theorem Memory.eq_of_read_eq {mem' : Memory} (h : Memory.wf base mem = true) (h' : Memory.wf base mem' = true)
    (hr : ∀ i, Memory.read base mem i = Memory.read base mem' i) : mem = mem' := by
  induction mem generalizing mem' with
  | nil =>
    cases mem' with
    | nil => rfl
    | cons d rest =>
      have := Memory.read_ne_base_of_mem h' (List.mem_cons_self (a := d) (l := rest))
      rw [← hr] at this
      exact absurd this.symm ((Memory.wf_iff.1 h').2 d (by simp))
  | cons d rest ih =>
    cases mem' with
    | nil =>
      have := Memory.read_ne_base_of_mem h (List.mem_cons_self (a := d) (l := rest))
      rw [hr] at this
      exact absurd this.symm ((Memory.wf_iff.1 h).2 d (by simp))
    | cons e rest' =>
      have hd := Memory.read_ne_base_of_mem h (List.mem_cons_self (a := d) (l := rest))
      have he := Memory.read_ne_base_of_mem h' (List.mem_cons_self (a := e) (l := rest'))
      rw [Memory.wf_iff] at h h'
      have h1 := Memory.rising_cons.1 h.1
      have h2 := Memory.rising_cons.1 h'.1
      have hdb := h.2 d (by simp)
      have heb := h'.2 e (by simp)
      have key : d.1 = e.1 := by
        rcases Nat.lt_trichotomy d.1 e.1 with hlt | heq | hgt
        · have : Memory.lookup (e :: rest') d.1 = Option.none :=
            Memory.lookup_none_of_lt (by simp only [List.mem_cons]; rintro x (rfl | hx); exacts [hlt, hlt.trans (h2.1 x hx)])
          rw [hr, Memory.read, this] at hd
          exact absurd hd.symm hdb
        · exact heq
        · have : Memory.lookup (d :: rest) e.1 = Option.none :=
            Memory.lookup_none_of_lt (by simp only [List.mem_cons]; rintro x (rfl | hx); exacts [hgt, hgt.trans (h1.1 x hx)])
          rw [← hr, Memory.read, this] at he
          exact absurd he.symm heb
      have hval : d.2 = e.2 := by rw [← hd, ← he, hr, key]
      have hde : d = e := Prod.ext key hval
      subst hde
      congr 1
      refine ih (Memory.wf_iff.2 ⟨h1.2, fun x hx => h.2 x (by simp [hx])⟩)
        (Memory.wf_iff.2 ⟨h2.2, fun x hx => h'.2 x (by simp [hx])⟩) fun i => ?_
      by_cases hi : d.1 = i
      · have n1 : Memory.lookup rest i = Option.none := Memory.lookup_none_of_lt (hi ▸ h1.1)
        have n2 : Memory.lookup rest' i = Option.none := Memory.lookup_none_of_lt (hi ▸ h2.1)
        simp [Memory.read, n1, n2]
      · simpa [Memory.read, hi] using hr i

/-! ### The storage of a state -/

variable {s : State}

/-- A read after a write: the byte written there, every other byte as before (20_memory R56, R65). -/
@[simp] theorem State.setByte_byteAt :
    (s.setByte a b).byteAt c = if c = a then b else s.byteAt c := Memory.read_write

end Sys2Proof.Machine
end

