-- ==== Sys2Proof/Laws/Pointer.lean ====
section
/-! SUPPORT. The pointer wrap-around engine: ranges, injectivity, and how the functions meet (10_state R26 to R30). -/

namespace Sys2Proof.Machine

variable {cap i n r w j k : Nat}

theorem advIndex_lt (h : 1 ≤ cap) (hi : i ≤ cap - 1) (hn : n ≤ cap - 1) : advIndex cap i n < cap := by
  unfold advIndex; split <;> omega

theorem advIndex_zero (hi : i ≤ cap - 1) : advIndex cap i 0 = i := by
  unfold advIndex; split <;> omega

theorem nextIndex_lt (h : 1 ≤ cap) (hi : i ≤ cap - 1) : nextIndex cap i < cap := by
  unfold nextIndex; split <;> omega

/-- Two different advances of one index are two different indices (10_state R29). -/
theorem advIndex_injective (hj : j ≤ cap - 1) (hk : k ≤ cap - 1)
    (h : advIndex cap i j = advIndex cap i k) : j = k := by
  unfold advIndex at h; split at h <;> split at h <;> omega

/-- One more place further (10_state R26, R29). -/
theorem advIndex_succ (hi : i ≤ cap - 1) (hn : n + 1 ≤ cap - 1) :
    advIndex cap i (n + 1) = nextIndex cap (advIndex cap i n) := by
  unfold nextIndex advIndex; split <;> split <;> split <;> omega

theorem advIndex_add (hi : i ≤ cap - 1) (hn : n + k ≤ cap - 1) :
    advIndex cap i (n + k) = advIndex cap (advIndex cap i n) k := by
  unfold advIndex; split <;> split <;> split <;> omega

theorem nextIndex_eq_advIndex (hi : i ≤ cap - 1) (h : 2 ≤ cap) : nextIndex cap i = advIndex cap i 1 := by
  unfold nextIndex advIndex; split <;> split <;> omega

theorem distIndex_le (hw : w ≤ cap - 1) : distIndex cap r w ≤ cap - 1 := by
  unfold distIndex; split <;> omega

/-- `dist` takes the read cursor to the write cursor (10_state R27). -/
theorem advIndex_distIndex (hr : r ≤ cap - 1) (hw : w ≤ cap - 1) : advIndex cap r (distIndex cap r w) = w := by
  unfold advIndex distIndex; split <;> split <;> omega

theorem distIndex_eq_zero (hr : r ≤ cap - 1) (hw : w ≤ cap - 1) : distIndex cap r w = 0 ↔ r = w := by
  unfold distIndex; split <;> omega

theorem freeSpace_eq_zero (h : 1 ≤ cap) (hr : r ≤ cap - 1) (hw : w ≤ cap - 1) :
    freeSpace cap r w = 0 ↔ nextIndex cap w = r := by
  unfold freeSpace distIndex nextIndex; split <;> split <;> omega

/-- Moving the write cursor `n` free places on lengthens the data by `n` (10_state R27, R29). -/
theorem distIndex_advIndex_write (hr : r ≤ cap - 1) (hw : w ≤ cap - 1) (hn : n ≤ freeSpace cap r w) :
    distIndex cap r (advIndex cap w n) = distIndex cap r w + n := by
  unfold freeSpace at hn
  unfold advIndex distIndex at *; split at hn <;> split <;> split <;> omega

/-- Moving the read cursor `n` live places on shortens the data by `n` (10_state R27, R29). -/
theorem distIndex_advIndex_read (hr : r ≤ cap - 1) (hw : w ≤ cap - 1) (hn : n ≤ distIndex cap r w) :
    distIndex cap (advIndex cap r n) w = distIndex cap r w - n := by
  unfold advIndex distIndex at *; split at hn <;> split <;> split <;> omega

end Sys2Proof.Machine
end

