-- ==== Sys2Proof/Laws/Ops.lean ====
section
/-! SUPPORT. One lemma per shared operation that says everything it can do: if it answers a state, then it changed only the
storage, only these bytes, and kept the canonical form; and when it answers at all. -/

namespace Sys2Proof.Machine

/-- `t` is `s` with another storage, still canonical and still inside `[0, TOTAL_SIZE)` if it was. -/
structure StorageOnly (s t : State) : Prop where
  /-- Every other field is unchanged. -/
  fields : t = { s with storage := t.storage }
  /-- The canonical form is kept. -/
  inv : s.MemoryInv → t.MemoryInv

theorem StorageOnly.refl (s : State) : StorageOnly s s := ⟨rfl, id⟩

theorem StorageOnly.trans {s t u : State} (h : StorageOnly s t) (h' : StorageOnly t u) : StorageOnly s u :=
  ⟨by rw [h'.fields, h.fields], h'.inv ∘ h.inv⟩

theorem StorageOnly.total {s t : State} (h : StorageOnly s t) : t.total = s.total := by rw [h.fields]; rfl

theorem StorageOnly.cap {s t : State} (h : StorageOnly s t) : t.cap = s.cap := by rw [h.fields]; rfl

theorem StorageOnly.bl {s t : State} (h : StorageOnly s t) : t.bl = s.bl := by rw [h.fields]; rfl

theorem StorageOnly.powerUpByte {s t : State} (h : StorageOnly s t) : t.powerUpByte = s.powerUpByte := by
  rw [h.fields]; rfl

theorem StorageOnly.byteAt {s t : State} (h : StorageOnly s t) (a : Nat) :
    Memory.read s.powerUpByte t.storage a = t.byteAt a := by
  rw [State.byteAt, h.powerUpByte]

/-! ### Byte accesses -/

variable {s t : State} {i a : Nat} {b : Byte}

theorem memRead_eq_ok : memRead s i = .ok b ↔ i < s.total ∧ b = s.byteAt i := by
  unfold memRead; split <;> simp [*, eq_comm]

theorem memWrite_eq_ok : memWrite s i b = .ok t ↔ i < s.total ∧ t = s.setByte i b := by
  unfold memWrite; split <;> simp [*, eq_comm]

theorem storageOnly_setByte (h : i < s.total) : StorageOnly s (s.setByte i b) :=
  ⟨rfl, fun ⟨hw, ha⟩ => ⟨Memory.wf_write hw, fun c hc => by
    rcases Memory.mem_write hc with rfl | hc
    · exact h
    · exact ha c hc⟩⟩

/-! ### The mirrored store of PUSH and BULKW -/

/-- The indices a mirrored store at `i` touches exist. -/
abbrev State.Storable (s : State) (i : Nat) : Prop := i < s.total ∧ (i ≤ s.bl → i + s.cap < s.total)

theorem storeMirrored_ok (h : s.Storable i) : ∃ t, storeMirrored s i b = .ok t := by
  unfold storeMirrored
  rw [memWrite_eq_ok.2 ⟨h.1, rfl⟩]
  by_cases hb : i ≤ s.bl
  · exact ⟨_, by simp only [State.inHead, hb, decide_true, if_true]; exact memWrite_eq_ok.2 ⟨h.2 hb, rfl⟩⟩
  · exact ⟨_, by simp only [State.inHead, hb, decide_false]; rfl⟩

/-- All that a mirrored store can do: only the storage changes, the byte at `i` and, for a head index, at its mirror cell. -/
theorem storeMirrored_spec (h : storeMirrored s i b = .ok t) :
    StorageOnly s t ∧ s.Storable i ∧
      ∀ a, t.byteAt a = if a = i ∨ (i ≤ s.bl ∧ a = i + s.cap) then b else s.byteAt a := by
  unfold storeMirrored at h
  split at h
  · cases h
  · rename_i s1 h1
    obtain ⟨hi, rfl⟩ := memWrite_eq_ok.1 h1
    split at h
    · rename_i hb
      have hb : i ≤ s.bl := by simpa [State.inHead] using hb
      obtain ⟨hm, rfl⟩ := memWrite_eq_ok.1 h
      refine ⟨(storageOnly_setByte hi).trans (storageOnly_setByte hm), ⟨hi, fun _ => by simpa [State.mirrorOf] using hm⟩, fun a => ?_⟩
      simp only [State.setByte_byteAt, State.mirrorOf]
      grind
    · rename_i hb
      have hb : ¬ i ≤ s.bl := by simpa [State.inHead] using hb
      cases h
      refine ⟨storageOnly_setByte hi, ⟨hi, fun h => absurd h hb⟩, fun a => ?_⟩
      simp only [State.setByte_byteAt]
      grind

/-! ### The loop of BULKW -/

theorem storeRun_ok {base : Nat} {data : List Byte} {j : Nat}
    (h : ∀ k < data.length, s.Storable (advIndex s.cap base (j + k))) : ∃ t, storeRun base data j s = .ok t := by
  induction data generalizing s j with
  | nil => exact ⟨s, rfl⟩
  | cons b rest ih =>
    obtain ⟨s1, h1⟩ := storeMirrored_ok (b := b) (h 0 (by simp))
    obtain ⟨so, -, -⟩ := storeMirrored_spec h1
    simp only [storeRun]
    rw [Nat.add_zero] at h1
    rw [h1]
    refine ih fun k hk => ?_
    have := h (k + 1) (by simpa using hk)
    rw [State.Storable, so.total, so.bl, so.cap]
    rwa [show j + 1 + k = j + (k + 1) by omega]

/-- What the loop of BULKW leaves alone: everything but the storage, and there every cell that is neither one of the indices
`adv(base, j)` and on nor the mirror cell of one. -/
theorem storeRun_frame {base : Nat} {data : List Byte} {j : Nat} (h : storeRun base data j s = .ok t) :
    StorageOnly s t ∧
      ∀ a, (∀ k < data.length, a ≠ advIndex s.cap base (j + k) ∧
          ¬ (advIndex s.cap base (j + k) ≤ s.bl ∧ a = advIndex s.cap base (j + k) + s.cap)) →
        t.byteAt a = s.byteAt a := by
  induction data generalizing s j with
  | nil => cases h; exact ⟨.refl _, fun _ _ => rfl⟩
  | cons b rest ih =>
    simp only [storeRun] at h
    split at h
    · cases h
    · rename_i s1 h1
      obtain ⟨so, -, hb⟩ := storeMirrored_spec h1
      obtain ⟨so', hf⟩ := ih h
      refine ⟨so.trans so', fun a ha => ?_⟩
      rw [so.cap, so.bl] at hf
      have h0 := ha 0 (by simp)
      rw [Nat.add_zero] at h0
      rw [hf a fun k hk => by
        have := ha (k + 1) (by simpa using hk)
        rwa [show j + 1 + k = j + (k + 1) by omega], hb, if_neg (by tauto)]

/-- What the loop of BULKW writes: byte `k` at `adv(base, j + k)` and, in the head, at its mirror cell. -/
theorem storeRun_bytes {base : Nat} {data : List Byte} {j : Nat} (h : storeRun base data j s = .ok t)
    (hbase : base ≤ s.cap - 1) (hcap : 1 ≤ s.cap) (hfit : j + data.length ≤ s.cap) :
    ∀ k (hk : k < data.length), t.byteAt (advIndex s.cap base (j + k)) = data[k] ∧
      (advIndex s.cap base (j + k) ≤ s.bl → t.byteAt (advIndex s.cap base (j + k) + s.cap) = data[k]) := by
  induction data generalizing s j with
  | nil => intro k hk; cases hk
  | cons b rest ih =>
    simp only [storeRun] at h
    split at h
    · cases h
    · rename_i s1 h1
      obtain ⟨so, -, hb⟩ := storeMirrored_spec h1
      simp only [List.length_cons] at hfit
      intro k hk
      rcases k with _ | k
      · obtain ⟨-, hf⟩ := storeRun_frame h
        rw [so.cap, so.bl] at hf
        have hsep : ∀ k < rest.length, advIndex s.cap base j ≠ advIndex s.cap base (j + 1 + k) := fun k hk heq => by
          have := advIndex_injective (by omega) (by omega) heq
          omega
        have hlt : ∀ k < rest.length, advIndex s.cap base (j + 1 + k) < s.cap := fun k hk =>
          advIndex_lt hcap hbase (by omega)
        have h0 : advIndex s.cap base j < s.cap := advIndex_lt hcap hbase (by omega)
        simp only [Nat.add_zero, List.getElem_cons_zero]
        constructor
        · rw [hf _ fun k hk => ⟨hsep k hk, fun h => by have := h0; omega⟩, hb, if_pos (.inl rfl)]
        · intro hle
          rw [hf _ fun k hk => ⟨fun h => by have := hlt k hk; omega, fun h => hsep k hk (by omega)⟩, hb, if_pos (.inr ⟨hle, rfl⟩)]
      · have := ih (s := s1) (j := j + 1) h (by rwa [so.cap]) (by rwa [so.cap]) (by rw [so.cap]; omega) k (by simpa using hk)
        rw [so.cap, so.bl, show j + 1 + k = j + (k + 1) by omega] at this
        simpa using this

/-! ### The copy loops of COMMITW -/

theorem copyRun_ok {src dst n : Nat} (h : n = 0 ∨ (src + n ≤ s.total ∧ dst + n ≤ s.total)) :
    ∃ t, copyRun src dst n s = .ok t := by
  induction n generalizing s src dst with
  | zero => exact ⟨s, rfl⟩
  | succ n ih =>
    have h : src + (n + 1) ≤ s.total ∧ dst + (n + 1) ≤ s.total := by omega
    simp only [copyRun]
    rw [memRead_eq_ok.2 ⟨by omega, rfl⟩]
    simp only
    rw [memWrite_eq_ok.2 ⟨by omega, rfl⟩]
    exact ih (.inr ⟨by have := h.1; simp only [State.setByte_total]; omega, by have := h.2; simp only [State.setByte_total]; omega⟩)

/-- What a copy loop leaves alone: everything but the storage, and there every cell outside `[dst, dst + n)`. -/
theorem copyRun_frame {src dst n : Nat} (h : copyRun src dst n s = .ok t) :
    StorageOnly s t ∧ ∀ a, (a < dst ∨ dst + n ≤ a) → t.byteAt a = s.byteAt a := by
  induction n generalizing s src dst with
  | zero => cases h; exact ⟨.refl _, fun _ _ => rfl⟩
  | succ n ih =>
    simp only [copyRun] at h
    split at h
    · cases h
    · split at h
      · cases h
      · rename_i s1 h1
        obtain ⟨hi, rfl⟩ := memWrite_eq_ok.1 h1
        obtain ⟨so, hf⟩ := ih h
        refine ⟨(storageOnly_setByte hi).trans so, fun a ha => ?_⟩
        rw [hf a (by omega), State.setByte_byteAt, if_neg (by omega)]

/-- What a copy loop writes, where source and destination do not meet (43_write_span R151): the bytes that stood at the
source. -/
theorem copyRun_bytes {src dst n : Nat} (h : copyRun src dst n s = .ok t) (hsep : src + n ≤ dst ∨ dst + n ≤ src) :
    ∀ a, dst ≤ a → a < dst + n → t.byteAt a = s.byteAt (src + (a - dst)) := by
  induction n generalizing s src dst with
  | zero => intro a h1 h2; omega
  | succ n ih =>
    simp only [copyRun] at h
    split at h
    · cases h
    · rename_i b hb
      obtain ⟨-, rfl⟩ := memRead_eq_ok.1 hb
      split at h
      · cases h
      · rename_i s1 h1
        obtain ⟨hi, rfl⟩ := memWrite_eq_ok.1 h1
        intro a ha1 ha2
        by_cases hd : a = dst
        · subst hd
          rw [(copyRun_frame h).2 a (by omega), State.setByte_byteAt, if_pos rfl, Nat.sub_self, Nat.add_zero]
        · rw [ih h (by omega) a (by omega) (by omega), State.setByte_byteAt, if_neg (by omega)]
          congr 1
          omega

/-! ### The storage accesses and `err`

No access looks at `err` or changes it (10_state R25): it runs the same from a state with another `err`. -/

variable (e : ErrorCode)

theorem memRead_raiseFault : memRead (s.raiseFault e) i = memRead s i := rfl

theorem memWrite_raiseFault (h : memWrite s i b = .ok t) : memWrite (s.raiseFault e) i b = .ok (t.raiseFault e) := by
  obtain ⟨hi, rfl⟩ := memWrite_eq_ok.1 h
  exact memWrite_eq_ok.2 ⟨hi, rfl⟩

theorem storeMirrored_raiseFault (h : storeMirrored s i b = .ok t) :
    storeMirrored (s.raiseFault e) i b = .ok (t.raiseFault e) := by
  unfold storeMirrored at h ⊢
  split at h
  · cases h
  · rename_i s1 h1
    rw [memWrite_raiseFault e h1]
    show (if s.inHead i then memWrite (s1.raiseFault e) (s.mirrorOf i) b else .ok (s1.raiseFault e)) = _
    by_cases hb : s.inHead i = true
    · rw [if_pos hb] at h ⊢; exact memWrite_raiseFault e h
    · rw [if_neg hb] at h ⊢; cases h; rfl

theorem storeRun_raiseFault {base : Nat} {data : List Byte} {j : Nat} (h : storeRun base data j s = .ok t) :
    storeRun base data j (s.raiseFault e) = .ok (t.raiseFault e) := by
  induction data generalizing s j with
  | nil => cases h; rfl
  | cons b rest ih =>
    simp only [storeRun] at h ⊢
    split at h
    · cases h
    · rename_i s1 h1
      rw [State.raiseFault_cap, storeMirrored_raiseFault e h1]
      exact ih h

theorem copyRun_raiseFault {src dst n : Nat} (h : copyRun src dst n s = .ok t) :
    copyRun src dst n (s.raiseFault e) = .ok (t.raiseFault e) := by
  induction n generalizing s src dst with
  | zero => cases h; rfl
  | succ n ih =>
    simp only [copyRun, memRead_raiseFault] at h ⊢
    split at h
    · cases h
    · split at h
      · cases h
      · rename_i s1 h1
        simp only [memWrite_raiseFault e h1]
        exact ih h

end Sys2Proof.Machine
end

