-- ==== Sys2Proof/Laws/Exec.lean ====
section
/-! SUPPORT. What each command, each span-port request and a step can do, said once: if it answers a next state, then it was
refused, or it took its one effect. -/

namespace Sys2Proof.Machine

variable {s t : State}

/-- The checks in front of a command's rule: lifecycle, then span protocol (60_exceptions R207). -/
theorem requireConfigured_refuseWhen_next {busy : Bool} {body : Host.Outcome State Fault Refusal}
    (h : requireConfigured s (refuseWhen busy s body) = .next t) :
    t = refuse .usageError s ∨ (s.configured = true ∧ busy = false ∧ body = .next t) := by
  unfold requireConfigured refuseWhen at h
  split at h
  · split at h
    · exact .inl (by injection h with h; exact h.symm)
    · exact .inr ⟨by assumption, by simp_all, h⟩
  · exact .inl (by injection h with h; exact h.symm)

theorem requireConfigured_next {body : Host.Outcome State Fault Refusal} (h : requireConfigured s body = .next t) :
    t = refuse .usageError s ∨ (s.configured = true ∧ body = .next t) := by
  unfold requireConfigured at h
  split at h
  · exact .inr ⟨by assumption, h⟩
  · exact .inl (by injection h with h; exact h.symm)

/-! ### The commands -/

theorem execInit_next {m0 : Index} (h : execInit m0 s = .next t) :
    t = refuse .usageError s ∨ t = refuse .configError s ∨
      (s.configured = false ∧ s.badMirrorSize m0 = false ∧ t = respond (s.construct m0) 0 0) := by
  injection h with h
  unfold initResult at h
  split_ifs at h
  · exact .inl h.symm
  · exact .inr (.inl h.symm)
  · exact .inr (.inr ⟨by simp_all, by simp_all, h.symm⟩)

theorem execPush_next {v : Byte} (h : execPush v s = .next t) :
    t = refuse .usageError s ∨
      (s.configured = true ∧ s.wsOpen = false ∧ ∃ s1, storeMirrored s s.w v = .ok s1 ∧ t = pushAdvance s.pushOverflows s1) := by
  rcases requireConfigured_refuseWhen_next h with h | ⟨hc, hw, h⟩
  · exact .inl h
  · split at h
    · cases h
    · injection h with h; exact .inr ⟨hc, hw, _, by assumption, h.symm⟩

theorem execPop_next (h : execPop s = .next t) :
    t = refuse .usageError s ∨
      (s.configured = true ∧ s.rsOpen = false ∧ s.r < s.total ∧ t = popResult (s.byteAt s.r) s) := by
  rcases requireConfigured_refuseWhen_next h with h | ⟨hc, hw, h⟩
  · exact .inl h
  · split at h
    · cases h
    · rename_i b hb
      obtain ⟨hr, rfl⟩ := memRead_eq_ok.1 hb
      injection h with h
      exact .inr ⟨hc, hw, hr, h.symm⟩

theorem execBulkw_next {len : Index} {data : List Byte} (h : execBulkw len data s = .next t) :
    t = refuse .usageError s ∨
      (s.configured = true ∧ s.wsOpen = false ∧ ∃ s1, storeRun s.w (data.take (s.bulkCount len)) 0 s = .ok s1 ∧
        t = bulkAdvance (s.bulkOverflows len) (s.bulkCount len) s1) := by
  rcases requireConfigured_refuseWhen_next h with h | ⟨hc, hw, h⟩
  · exact .inl h
  · split at h
    · cases h
    · injection h with h; exact .inr ⟨hc, hw, _, by assumption, h.symm⟩

theorem execAllocw_next {maxLen : Index} (h : execAllocw maxLen s = .next t) :
    t = refuse .usageError s ∨ (s.configured = true ∧ s.wsOpen = false ∧ t = allocwResult maxLen s) := by
  rcases requireConfigured_refuseWhen_next h with h | ⟨hc, hw, h⟩
  · exact .inl h
  · injection h with h; exact .inr ⟨hc, hw, h.symm⟩

theorem execCommitw_next {len : Index} (h : execCommitw len s = .next t) :
    t = refuse .usageError s ∨
      (s.configured = true ∧ s.wsOpen = true ∧ len.toNat ≤ s.wsLen.toNat ∧
        ∃ s1, commitCopies len.toNat s = .ok s1 ∧ t = commitwResult len.toNat s1) := by
  rcases requireConfigured_refuseWhen_next h with h | ⟨hc, hw, h⟩
  · exact .inl h
  · unfold refuseWhen at h
    split at h
    · injection h with h; exact .inl h.symm
    · split at h
      · cases h
      · rename_i hl _ s1 h1
        injection h with h
        exact .inr ⟨hc, by simpa using hw, by simpa using hl, s1, h1, h.symm⟩

theorem execAllocr_next {maxLen : Index} (h : execAllocr maxLen s = .next t) :
    t = refuse .usageError s ∨ (s.configured = true ∧ s.rsOpen = false ∧ t = allocrResult maxLen s) := by
  rcases requireConfigured_refuseWhen_next h with h | ⟨hc, hw, h⟩
  · exact .inl h
  · injection h with h; exact .inr ⟨hc, hw, h.symm⟩

theorem execCommitr_next {len : Index} (h : execCommitr len s = .next t) :
    t = refuse .usageError s ∨
      (s.configured = true ∧ s.rsOpen = true ∧ len.toNat ≤ s.rsLen.toNat ∧
        t = respond ((s.setRead (s.releasedTo len.toNat)).closeRead) 0 0) := by
  rcases requireConfigured_refuseWhen_next h with h | ⟨hc, hw, h⟩
  · exact .inl h
  · unfold refuseWhen at h
    split at h
    · injection h with h; exact .inl h.symm
    · rename_i hl
      injection h with h
      exact .inr ⟨hc, by simpa using hw, by simpa using hl, h.symm⟩

theorem execLength_next (h : execLength s = .next t) :
    t = refuse .usageError s ∨ (s.configured = true ∧ t = respond s 0 (toIndex s.dist)) := by
  rcases requireConfigured_next h with h | ⟨hc, h⟩
  · exact .inl h
  · injection h with h; exact .inr ⟨hc, h.symm⟩

theorem execHasdata_next (h : execHasdata s = .next t) :
    t = refuse .usageError s ∨ (s.configured = true ∧ t = respond s 0 (if s.isEmpty then 0 else 1)) := by
  rcases requireConfigured_next h with h | ⟨hc, h⟩
  · exact .inl h
  · injection h with h; exact .inr ⟨hc, h.symm⟩

theorem execGeterr_next (h : execGeterr s = .next t) :
    t = refuse .usageError s ∨ (s.configured = true ∧ t = respond s 0 (s.err.code.setWidth 16)) := by
  rcases requireConfigured_next h with h | ⟨hc, h⟩
  · exact .inl h
  · injection h with h; exact .inr ⟨hc, h.symm⟩

theorem execClrerr_next (h : execClrerr s = .next t) :
    t = refuse .usageError s ∨ (s.configured = true ∧ t = respond (s.raiseFault .none) 0 0) := by
  rcases requireConfigured_next h with h | ⟨hc, h⟩
  · exact .inl h
  · injection h with h; exact .inr ⟨hc, h.symm⟩

/-! ### The copies of COMMITW -/

/-- The copies of COMMITW exist whenever the span they come from lies in the storage (43_write_span R150, R151). -/
theorem commitCopies_ok {len : Nat} (hr : s.InRange) (hw : s.wsOpen = true) (hl : len ≤ s.wsLen.toNat) :
    ∃ u, commitCopies len s = .ok u := by
  obtain ⟨⟨hm1, hm2, hwl, -⟩, -, hws, -⟩ := hr
  obtain ⟨-, a2, a3, -⟩ := hws hw
  have ecap : s.cap + s.m = s.total := by unfold State.cap; omega
  have ebl : s.bl = s.m - 1 := rfl
  have ell : s.ll = s.cap - 1 := rfl
  have hfree : s.free ≤ s.cap - 1 := by unfold State.free freeSpace; omega
  obtain ⟨t1, ht1⟩ := copyRun_ok (s := s) (src := s.w) (dst := s.cap + s.w) (n := s.headCommitted len)
    (by unfold State.headCommitted; split <;> omega)
  obtain ⟨t2, ht2⟩ := copyRun_ok (s := t1) (src := s.cap) (dst := 0) (n := s.spilled len)
    (by rw [(copyRun_frame ht1).1.total]; unfold State.spilled; split <;> omega)
  exact ⟨t2, by simp only [commitCopies, ht1, ht2]⟩

/-- What the copies of COMMITW do to a block in range: the committed head bytes stand in their mirror cells too, the spilled
bytes in the head too, and every other byte is as it was (43_write_span R150, R151). -/
theorem commitCopies_spec {len : Nat} {u : State} (h : commitCopies len s = .ok u) :
    StorageOnly s u ∧ (s.InRange → s.wsOpen = true → len ≤ s.wsLen.toNat → ∀ a, u.byteAt a =
      if s.cap + s.w ≤ a ∧ a < s.cap + min (s.w + len) (s.bl + 1) then s.byteAt (a - s.cap)
      else if a + s.cap < s.w + len then s.byteAt (a + s.cap) else s.byteAt a) := by
  unfold commitCopies at h
  split at h
  · cases h
  · rename_i s1 h1
    obtain ⟨so1, hf1⟩ := copyRun_frame h1
    obtain ⟨so2, hf2⟩ := copyRun_frame h
    refine ⟨so1.trans so2, fun hr hw hl a => ?_⟩
    obtain ⟨⟨hm1, hm2, hwl, -⟩, -, hws, -⟩ := hr
    obtain ⟨-, a2, a3, -⟩ := hws hw
    have ecap : s.cap + s.m = s.total := by unfold State.cap; omega
    have ebl : s.bl = s.m - 1 := rfl
    have ell : s.ll = s.cap - 1 := rfl
    have hfree : s.free ≤ s.cap - 1 := by unfold State.free freeSpace; omega
    have hhc : s.headCommitted len = min (s.w + len) (s.bl + 1) - s.w := by
      unfold State.headCommitted; split <;> omega
    have hsp : s.spilled len = s.w + len - s.cap := by unfold State.spilled; split <;> omega
    have hb1 := copyRun_bytes h1 (by omega)
    have hb2 := copyRun_bytes h (by omega)
    rw [hhc] at hf1 hb1
    rw [hsp] at hf2 hb2
    split_ifs with c1 c2
    · rw [hf2 a (by omega), hb1 a (by omega) (by omega)]; congr 1; omega
    · rw [hb2 a (by omega) (by omega), hf1 _ (by omega)]; congr 1; omega
    · rw [hf2 a (by omega), hf1 _ (by omega)]

/-- The copies look at no `err` (10_state R25). -/
theorem commitCopies_raiseFault {len : Nat} {u : State} (e : ErrorCode) (h : commitCopies len s = .ok u) :
    commitCopies len (s.raiseFault e) = .ok (u.raiseFault e) := by
  unfold commitCopies at h
  split at h
  · cases h
  · rename_i s1 h1
    have h1 : copyRun (s.raiseFault e).w ((s.raiseFault e).cap + (s.raiseFault e).w) ((s.raiseFault e).headCommitted len)
        (s.raiseFault e) = .ok (s1.raiseFault e) := copyRun_raiseFault e h1
    simp only [commitCopies, h1]
    exact copyRun_raiseFault e h

/-- Where COMMITW and COMMITR leave their cursor is `adv` of it (43_write_span R150, 44_read_span R170). -/
theorem committedEnd_eq (len : Nat) : s.committedEnd len = advIndex s.cap s.w len := by
  unfold State.committedEnd advIndex State.ll; split <;> split <;> omega

theorem releasedTo_eq (len : Nat) : s.releasedTo len = advIndex s.cap s.r len := by
  unfold State.releasedTo advIndex State.ll; split <;> split <;> omega

/-! ### The span port and the step -/

theorem spanWrite_next {p : Index} {b : Byte} (h : spanWrite p b s = .next t) :
    (s.inWriteSpan p.toNat = true ∧ p.toNat < s.total ∧ t = (s.setByte p.toNat b).reply .written) ∨
      (s.inWriteSpan p.toNat = false ∧ t = s.reply .rejected) := by
  unfold spanWrite at h
  split at h
  · split at h
    · cases h
    · rename_i hin _ s1 h1
      obtain ⟨hp, rfl⟩ := memWrite_eq_ok.1 h1
      injection h with h
      exact .inl ⟨hin, hp, h.symm⟩
  · rename_i hin
    injection h with h
    exact .inr ⟨by simpa using hin, h.symm⟩

theorem spanRead_next {p : Index} (h : spanRead p s = .next t) :
    (s.inReadSpan p.toNat = true ∧ p.toNat < s.total ∧ t = s.reply (.data (s.byteAt p.toNat))) ∨
      (s.inReadSpan p.toNat = false ∧ t = s.reply .rejected) := by
  unfold spanRead at h
  split at h
  · split at h
    · cases h
    · rename_i hin _ b hb
      obtain ⟨hp, rfl⟩ := memRead_eq_ok.1 hb
      injection h with h
      exact .inl ⟨hin, hp, h.symm⟩
  · rename_i hin
    injection h with h
    exact .inr ⟨by simpa using hin, h.symm⟩

/-- What a step can be: no step is chosen, or a command is executed, an illegal transaction refused, a span-port request
answered, or the block reset (20_memory R64). -/
theorem step_next (h : step s = .next t) :
    (s.requests = [] ∧ t = s) ∨
    (∃ word payload rest i, s.requests = .command word payload :: rest ∧ decode word payload = .ok i ∧
      exec i { s with requests := rest } = .next t) ∨
    (∃ word payload rest e, s.requests = .command word payload :: rest ∧ decode word payload = .error e ∧
      t = refuse .illegalCmd { s with requests := rest }) ∨
    (∃ p b rest, s.requests = .spanWr p b :: rest ∧ spanWrite p b { s with requests := rest } = .next t) ∨
    (∃ p rest, s.requests = .spanRd p :: rest ∧ spanRead p { s with requests := rest } = .next t) ∨
    (∃ rest, s.requests = .reset :: rest ∧ t = hardwareReset { s with requests := rest }) := by
  unfold step serveNext at h
  split at h
  · rename_i hq
    injection h with h
    exact .inl ⟨hq, h.symm⟩
  · rename_i q rest hq
    cases q with
    | command word payload =>
      simp only [serve, runTransaction] at h
      split at h
      · rename_i e he
        injection h with h
        exact .inr (.inr (.inl ⟨word, payload, rest, e, hq, he, h.symm⟩))
      · rename_i i hi
        exact .inr (.inl ⟨word, payload, rest, i, hq, hi, h⟩)
    | spanWr p b => exact .inr (.inr (.inr (.inl ⟨p, b, rest, hq, h⟩)))
    | spanRd p => exact .inr (.inr (.inr (.inr (.inl ⟨p, rest, hq, h⟩))))
    | reset =>
      injection h with h
      exact .inr (.inr (.inr (.inr (.inr ⟨rest, hq, h.symm⟩))))

end Sys2Proof.Machine
end

