-- ==== Sys2Proof/Laws/PerInstr.lean ====
section
/-! SUPPORT. The family of facts made per command: the encoder's word lies in its row of the opcode map (30_encoding R86). -/

namespace Sys2Proof.Laws.EncodedWordMatchesItsRow

/-- The word of a command has the bits that its row of 30_encoding R86 fixes. -/
def Statement (i : Instr) : Prop := (encode i).1 &&& i.mask = i.matchBits

theorem init (mirrorSize : Index) : Statement (.init mirrorSize) := commandWord_and_operandMask 0x1 mirrorSize

theorem push (value : Byte) : Statement (.push value) := commandWord_and_byteOperandMask 0x2 value

theorem pop : Statement .pop := by unfold Statement; decide

theorem bulkw (len : Index) (data : List Byte) : Statement (.bulkw len data) := commandWord_and_operandMask 0x4 len

theorem allocw (maxLen : Index) : Statement (.allocw maxLen) := commandWord_and_operandMask 0x5 maxLen

theorem commitw (len : Index) : Statement (.commitw len) := commandWord_and_operandMask 0x6 len

theorem allocr (maxLen : Index) : Statement (.allocr maxLen) := commandWord_and_operandMask 0x7 maxLen

theorem commitr (len : Index) : Statement (.commitr len) := commandWord_and_operandMask 0x8 len

theorem length : Statement .length := by unfold Statement; decide

theorem hasdata : Statement .hasdata := by unfold Statement; decide

theorem geterr : Statement .geterr := by unfold Statement; decide

theorem clrerr : Statement .clrerr := by unfold Statement; decide

end Sys2Proof.Laws.EncodedWordMatchesItsRow
end

