-- ==== Sys2Proof/Tests/Slice0.lean ====
section
/-! SUPPORT. Our own tests: the well-formedness check, decoding of words written out from 30_encoding R81 and R86, one or two
steps of every command against the examples and vectors of the spec, and a witness of the hypotheses of every statement. The
expected values are the spec's: the table or rule is named at each test. -/

namespace Sys2Proof.Tests

open Sys2Proof Sys2Proof.Machine

/-! ### Helpers -/

/-- The next state, if the outcome is one. -/
def nextOf : Host.Outcome State Fault Refusal → Option State
  | .next t => some t
  | .fault _ => Option.none
  | .refused _ => Option.none

/-- What `f` sees in the next state. -/
def seen {α : Type} (f : State → α) (o : Host.Outcome State Fault Refusal) : Option α := (nextOf o).map f

/-- An UNCONFIGURED block of 16 bytes, all zero at power-up. -/
def fresh : State := { State.reset with totalSize := 16, powerUpFixed := List.replicate 16 0 }

/-- A READY block whose storage holds `bytes`, with its three cursors' values; `TOTAL_SIZE` is the length of `bytes`. -/
def block (bytes : List Byte) (m w r : Index) : State :=
  { State.reset with
    totalSize := toIndex bytes.length, powerUpFixed := bytes, configured := true
    mirrorSize := m, writeIndex := w, readIndex := r }

/-- A READY block of 16 zero bytes with `m = 4` (`cap = 12`, `bl = 3`, `ll = 11`), the configuration of most vectors. -/
def ready (w r : Index) : State := block (List.replicate 16 0) 4 w r

/-- The state with `q` chosen as the environment's next step. -/
def asked (s : State) (q : Request) : State := { s with requests := [q] }

/-- 95_test_vectors S1 after row 25: the agent has filled the write span `[11, 15)`. -/
def s1 : State :=
  { block [0x00, 0x01, 0x02, 0x03, 0x04, 0x05, 0x06, 0x07, 0x08, 0x09, 0x0A, 0xA0, 0xA1, 0xA2, 0xA3, 0x03] 4 11 5 with
    wsOpen := true, wsLen := 4, err := .overflow }

/-- 96_test_vectors V43-c after row 10: `TOTAL_SIZE = 10`, the write span `[3, 7)` filled. -/
def v43c : State :=
  { block [0x01, 0x02, 0x03, 0xD0, 0xD1, 0xD2, 0xD3, 0x02, 0x03, 0x00] 4 3 3 with wsOpen := true, wsLen := 4 }

/-- 96_test_vectors V44-a after row 13: the live bytes `E0 E1 E2 E3` at 10, 11, 0, 1. -/
def v44a : State := block [0xE2, 0xE3, 0, 0, 0, 0, 0, 0, 0, 0, 0xE0, 0xE1, 0xE2, 0xE3, 0, 0] 4 2 10

/-- V44-a with a read span of 4 and a write span of 4 outstanding. -/
def bothSpans : State := { v44a with rsOpen := true, rsLen := 4, wsOpen := true, wsLen := 4 }

/-- `TOTAL_SIZE = 2`, `m = 1` (95_test_vectors V40-e). -/
def smallest : State := block [0x55, 0x55] 1 0 0

/-! ### Well-formedness -/

/-- A payload shorter or longer than `len` makes no BULKW (30_encoding R83). -/
theorem test_ill_formed_bulkw_refused :
    (Instr.bulkw 2 [0x01]).wellFormed = false ∧ (Instr.bulkw 0 [0x01]).wellFormed = false := by decide

theorem test_well_formed_bulkw : (Instr.bulkw 3 [0x0A, 0x0B, 0x0C]).wellFormed = true := by decide

/-! ### Decoding: words written out bit by bit from 30_encoding R81, R86 -/

theorem test_decode_init : decode 0b0001_000000000000_0000000000000100 [] = .ok (.init 4) := by rfl
theorem test_decode_push : decode 0b0010_000000000000_00000000_01000001 [] = .ok (.push 0x41) := by rfl
theorem test_decode_pop : decode 0b0011_000000000000_0000000000000000 [] = .ok .pop := by rfl
theorem test_decode_bulkw :
    decode 0b0100_000000000000_0000000000000011 [0x0A, 0x0B, 0x0C] = .ok (.bulkw 3 [0x0A, 0x0B, 0x0C]) := by rfl
theorem test_decode_allocw : decode 0b0101_000000000000_0000000000000110 [] = .ok (.allocw 6) := by rfl
theorem test_decode_commitw : decode 0b0110_000000000000_0000000000000100 [] = .ok (.commitw 4) := by rfl
theorem test_decode_allocr : decode 0b0111_000000000000_1111111111111111 [] = .ok (.allocr 65535) := by rfl
theorem test_decode_commitr : decode 0b1000_000000000000_0000000000000010 [] = .ok (.commitr 2) := by rfl
theorem test_decode_length : decode 0b1001_000000000000_0000000000000000 [] = .ok .length := by rfl
theorem test_decode_hasdata : decode 0b1010_000000000000_0000000000000000 [] = .ok .hasdata := by rfl
theorem test_decode_geterr : decode 0b1011_000000000000_0000000000000000 [] = .ok .geterr := by rfl
theorem test_decode_clrerr : decode 0b1100_000000000000_0000000000000000 [] = .ok .clrerr := by rfl

/-- The illegal rows of 95_test_vectors 3.1, each by the step of R84 that rejects it. -/
theorem test_decode_illegal :
    decode 0x00000000 [] = .error .unusedOpcode ∧ decode 0xD0000000 [] = .error .unusedOpcode ∧
    decode 0xE0000000 [] = .error .unusedOpcode ∧ decode 0xF0000000 [] = .error .unusedOpcode ∧
    decode 0x20000141 [] = .error .strayOperand ∧ decode 0x30000001 [] = .error .strayOperand ∧
    decode 0x90000001 [] = .error .strayOperand ∧ decode 0xA000FFFF [] = .error .strayOperand ∧
    decode 0xB0000001 [] = .error .strayOperand ∧ decode 0xC0000001 [] = .error .strayOperand ∧
    decode 0x50010006 [] = .error .reservedBits ∧ decode 0x18000004 [] = .error .reservedBits ∧
    decode 0x40000002 [0x01] = .error .payloadLength ∧ decode 0x40000000 [0x01] = .error .payloadLength ∧
    decode 0x30000000 [0x01] = .error .payloadLength := by
  refine ⟨?_, ?_, ?_, ?_, ?_, ?_, ?_, ?_, ?_, ?_, ?_, ?_, ?_, ?_, ?_⟩ <;> rfl

/-- The host's numbering: a BULKW of the table has its payload above bit 31, here two bytes of zeros (log entry 7). -/
theorem test_table_words :
    decodeTableWord 32 0x200000FF = some (.push 0xFF) ∧ decodeTableWord 32 0x40000002 = some (.bulkw 2 [0, 0]) ∧
    decodeTableWord 32 0x30000001 = Option.none := by
  refine ⟨?_, ?_, ?_⟩ <;> rfl

/-- 30_encoding R96: the response words of its examples. -/
theorem test_response_words :
    packResponse .ok .none .none 11 4 = 0x00000000000B0004 ∧ packResponse .ok .overflow .overflow 0 0 = 0x0500000000000000 ∧
    packResponse .usageError .none .overflow 0 0 = 0x2100000000000000 ∧
    packResponse .configError .none .none 0 0 = 0x1000000000000000 ∧
    packResponse .illegalCmd .none .underflow 0 0 = 0x3200000000000000 := by decide

/-! ### The commands -/

/-- V40-a row 17: `INIT 8` on 16 bytes is accepted. -/
theorem test_init_half :
    seen (fun t => (t.configured, t.m, t.cap, t.responses)) (exec (.init 8) fresh) = some (true, 8, 8, [0]) := by decide

/-- V40-a rows 14 and 15: `INIT 0` and `INIT 9` are refused with CONFIG_ERROR. -/
theorem test_init_refused :
    seen (fun t => (t.configured, t.responses)) (exec (.init 0) fresh) = some (false, [0x1000000000000000]) ∧
    seen (fun t => (t.configured, t.responses)) (exec (.init 9) fresh) = some (false, [0x1000000000000000]) := by decide

/-- The example of 41_byte_ops R121: stored at 2 and mirrored at 14. -/
theorem test_push_mirrors :
    seen (fun t => (t.w, t.byteAt 2, t.byteAt 14, t.byteAt 3, t.responses)) (exec (.push 0x41) (ready 2 0)) =
      some (3, 0x41, 0x41, 0, [0]) := by decide

/-- V41-a row 17: a full buffer keeps `w`, stores the byte all the same, raises Overflow. -/
theorem test_push_full :
    seen (fun t => (t.w, t.byteAt 1, t.byteAt 13, t.err, t.responses)) (exec (.push 0x1D) (ready 1 2)) =
      some (1, 0x1D, 0x1D, .overflow, [0x0500000000000000]) := by decide

/-- V44-a, read byte by byte: the oldest byte is at index 10. -/
theorem test_pop_oldest :
    seen (fun t => (t.r, t.responses)) (exec .pop v44a) = some (11, [0x00000000000000E0]) := by decide

/-- V40-e row 4: the stale byte of an underflow, `err` overwritten. -/
theorem test_pop_empty :
    seen (fun t => (t.r, t.err, t.responses)) (exec .pop { smallest with err := .overflow }) =
      some (0, .underflow, [0x0A00000000000055]) := by decide

/-- The example of 42_bulk_write R136 (V42-b row 7): four bytes across the wrap, two of them mirrored. -/
theorem test_bulkw_wraps :
    seen (fun t => (t.w, t.bytesFrom 10 4, t.bytesFrom 0 2, t.responses))
      (exec (.bulkw 4 [0xA0, 0xA1, 0xA2, 0xA3]) (ready 10 4)) =
      some (2, [0xA0, 0xA1, 0xA2, 0xA3], [0xA2, 0xA3], [4]) := by decide

/-- V42-a row 14: six of nine bytes fit; index 5 keeps its byte. -/
theorem test_bulkw_partial :
    seen (fun t => (t.w, t.bytesFrom 4 2, t.byteAt 15, t.responses))
      (exec (.bulkw 9 [0x40, 0x41, 0x42, 0x43, 0x44, 0x45, 0x46, 0x47, 0x48]) (ready 11 6)) =
      some (5, [0x45, 0x00], 0x44, [0x0500000000000006]) := by decide

/-- V43-a rows 5 and 7: 10 bytes up to `ll` are granted whole, 11 are cut to `m`. -/
theorem test_allocw_cap :
    seen (fun t => (t.wsLen, t.w, t.responses)) (exec (.allocw 10) (ready 2 2)) = some (10, 2, [0x000000000002000A]) ∧
    seen (fun t => (t.wsLen, t.w, t.responses)) (exec (.allocw 11) (ready 2 2)) = some (4, 2, [0x0000000000020004]) := by
  decide

/-- V43-a row 11: `ALLOCW 0` raises Overflow and opens nothing. -/
theorem test_allocw_zero :
    seen (fun t => (t.wsOpen, t.err, t.responses)) (exec (.allocw 0) (ready 2 2)) =
      some (false, .overflow, [0x0500000000020000]) := by decide

/-- S1 row 29: three spilled bytes go to the head. -/
theorem test_commitw_relocates :
    seen (fun t => (t.w, t.wsOpen, t.bytesFrom 0 4, t.responses)) (exec (.commitw 4) s1) =
      some (3, false, [0xA1, 0xA2, 0xA3, 0x03], [0x0100000000000000]) := by decide

/-- V43-c row 11: both copy steps in one command. -/
theorem test_commitw_mirrors_and_relocates :
    seen (fun t => (t.w, t.bytesFrom 0 10)) (exec (.commitw 4) v43c) =
      some (1, [0xD3, 0x02, 0x03, 0xD0, 0xD1, 0xD2, 0xD3, 0x02, 0x03, 0xD0]) := by decide

/-- V44-a row 16: a span of 4 across the wrap. -/
theorem test_allocr_wraps :
    seen (fun t => (t.r, t.rsOpen, t.rsLen, t.responses)) (exec (.allocr 4) v44a) =
      some (10, true, 4, [0x00000000000A0004]) := by decide

/-- V44-a row 14: `ALLOCR 0` on data raises nothing and opens nothing. -/
theorem test_allocr_zero :
    seen (fun t => (t.rsOpen, t.err, t.responses)) (exec (.allocr 0) v44a) =
      some (false, .none, [0x00000000000A0000]) := by decide

/-- V44-a row 29: `10 + 3 = 13 > 11`, so `r <- 1`. -/
theorem test_commitr_wraps :
    seen (fun t => (t.r, t.rsOpen, t.rsLen, t.responses)) (exec (.commitr 3) bothSpans) = some (1, false, 0, [0]) := by
  decide

/-- V44-a row 19: more than was granted is refused, the span stays open. -/
theorem test_commitr_too_long :
    seen (fun t => (t.r, t.rsLen, t.responses)) (exec (.commitr 5) bothSpans) = some (10, 4, [0x2000000000000000]) := by
  decide

/-- S1 row 30: `dist(5, 3) = 10`. -/
theorem test_length_wraps :
    seen (fun t => t.responses) (exec .length { ready 3 5 with err := .overflow }) = some [0x010000000000000A] := by decide

/-- The example of 45_status_queries R183, and a block with data. -/
theorem test_hasdata :
    seen (fun t => t.responses) (exec .hasdata (ready 7 7)) = some [0] ∧
    seen (fun t => t.responses) (exec .hasdata (ready 7 8)) = some [1] := by decide

/-- V41-a rows 32 and 33: reading does not clear. -/
theorem test_geterr :
    seen (fun t => (t.err, t.responses)) (exec .geterr { ready 1 1 with err := .underflow }) =
      some (.underflow, [0x0200000000000002]) := by decide

/-- V41-a row 34. -/
theorem test_clrerr :
    seen (fun t => (t.err, t.responses)) (exec .clrerr { ready 1 1 with err := .underflow }) = some (.none, [0]) := by
  decide

/-! ### The span port, reset and the step -/

/-- 20_memory R61, V43-c row 10: the byte lands in mirror cell 6, head cell 0 is not touched. -/
theorem test_span_write :
    seen (fun t => (t.byteAt 6, t.byteAt 0, t.spanReplies)) (spanWrite 6 0xEE v43c) = some (0xEE, 0x01, [.written]) := by
  decide

/-- 96_test_vectors 3.8: the write span `[11, 15)` refuses 10 and 15, and a read anywhere. -/
theorem test_span_rejected :
    seen (fun t => (t.byteAt 15, t.spanReplies)) (spanWrite 15 0xFF s1) = some (0x03, [.rejected]) ∧
    seen (fun t => (t.byteAt 10, t.spanReplies)) (spanWrite 10 0xFF s1) = some (0x0A, [.rejected]) ∧
    seen (fun t => t.spanReplies) (spanRead 11 s1) = some [.rejected] := by decide

/-- V44-a row 22: index 12 is served from the mirror region; row 24: index 14 is not in the span. -/
theorem test_span_read :
    seen (fun t => t.spanReplies) (spanRead 12 bothSpans) = some [.data 0xE2] ∧
    seen (fun t => t.spanReplies) (spanRead 14 bothSpans) = some [.rejected] := by decide

/-- 70_reset R225, R226 (V70-a row 8): spans closed, registers 0, no response word, the storage kept. -/
theorem test_reset :
    seen (fun t => (t.configured, t.wsOpen, t.rsOpen, t.byteAt 10, t.responses)) (step (asked bothSpans .reset)) =
      some (false, false, false, 0xE0, []) := by decide

/-- V30-a rows 6 and 10: an illegal word leaves the state and carries `err`. -/
theorem test_illegal_step :
    seen (fun t => (t.w, t.err, t.responses)) (step ({ ready 3 0 with err := .underflow }.withFetchWord 32 0x50010006)) =
      some (3, .underflow, [0x3200000000000000]) := by decide

/-- The very next step after `withFetchWord` runs the command. -/
theorem test_fetch_word_runs :
    seen (fun t => (t.w, t.requests)) (step ((ready 2 0).withFetchWord 32 0x20000041)) = some (3, []) := by decide

/-- V40-a row 8: on the state after reset every command but INIT is refused with USAGE_ERROR. -/
theorem test_reset_refuses :
    seen (fun t => t.responses) (step (State.reset.withFetchWord 32 0x90000000)) = some [0x2000000000000000] := by decide

/-! ### Witnesses: states that meet the hypotheses of the statements -/

theorem ready_inRange : (ready 2 10).InRange := ⟨by decide, by decide, by decide, by decide, by decide⟩
theorem full_inRange : (ready 11 0).InRange := ⟨by decide, by decide, by decide, by decide, by decide⟩
theorem empty_inRange : (ready 0 0).InRange := ⟨by decide, by decide, by decide, by decide, by decide⟩
theorem v44a_inRange : v44a.InRange := ⟨by decide, by decide, by decide, by decide, by decide⟩
theorem s1_inRange : s1.InRange := ⟨by decide, by decide, by decide, by decide, by decide⟩
theorem v43c_inRange : v43c.InRange := ⟨by decide, by decide, by decide, by decide, by decide⟩
theorem bothSpans_inRange : bothSpans.InRange := ⟨by decide, by decide, by decide, by decide, by decide⟩
theorem smallest_inRange : smallest.InRange := ⟨by decide, by decide, by decide, by decide, by decide⟩

theorem bothSpans_registerInv : bothSpans.RegisterInv := ⟨by decide, fun _ => bothSpans_inRange⟩
theorem fresh_registerInv : fresh.RegisterInv := ⟨by decide, by decide⟩
theorem bothSpans_memoryInv : bothSpans.MemoryInv := by decide
theorem bothSpans_liveMirrored : bothSpans.LiveMirrored := by decide
theorem bothSpans_headMirrored : bothSpans.HeadMirrored := by decide

/-- Both spans outstanding, four live bytes across the wrap. -/
theorem bothSpans_inv : bothSpans.Inv := ⟨bothSpans_registerInv, bothSpans_memoryInv, bothSpans_liveMirrored⟩

/-! Encoding. -/

theorem witness_DecodeOfEncodeIsTheCommand :
    (Instr.bulkw 0 []).wellFormed = true ∧ (Instr.bulkw 2 [0xFF, 0x00]).wellFormed = true ∧
    (Instr.init 0xFFFF).wellFormed = true := by decide

theorem witness_DecodedTransactionIsItsEncoding :
    decode 0x40000002 [0xFF, 0x00] = .ok (.bulkw 2 [0xFF, 0x00]) := by rfl

/-- The all-zero word is never a command (30_encoding R87). -/
theorem zero_word_is_no_command (i : Instr) : decode 0x00000000 [] ≠ .ok i := fun h => nomatch h

theorem witness_MaskAndMatchDecide :
    (0x200000FF : CommandWord) &&& (Instr.push 0x01).mask = (Instr.push 0x01).matchBits ∧
    (0x200000FF : CommandWord) &&& (Instr.push 0xFF).mask = (Instr.push 0xFF).matchBits ∧
    (∀ i, decode 0x00000000 [] ≠ .ok i) :=
  ⟨by decide, by decide, zero_word_is_no_command⟩

/-- One illegal transaction for each of the conditions, the others false. -/
theorem witness_IllegalTransactions :
    (0x08000000 : CommandWord).extractLsb' 16 12 ≠ 0 ∧ ((0x00000000 : CommandWord).extractLsb' 28 4).toNat = 0x0 ∧
    ((0xF0000000 : CommandWord).extractLsb' 28 4).toNat = 0xF ∧
    (((0xC0008000 : CommandWord).extractLsb' 28 4).toNat = 0xC ∧ (0xC0008000 : CommandWord).extractLsb' 0 16 ≠ 0) ∧
    (((0x20000100 : CommandWord).extractLsb' 28 4).toNat = 0x2 ∧
      ((0x20000100 : CommandWord).extractLsb' 0 16).extractLsb' 8 8 ≠ 0) ∧
    (((0x40000000 : CommandWord).extractLsb' 28 4).toNat = 0x4 ∧
      ([0x01] : List Byte).length ≠ ((0x40000000 : CommandWord).extractLsb' 0 16).toNat) ∧
    (((0x60000000 : CommandWord).extractLsb' 28 4).toNat ≠ 0x4 ∧ ([0x01] : List Byte) ≠ []) := by decide

/-! Steps. -/

/-- A transaction that decodes, and one that does not. -/
theorem witness_StepRunsTheDecodedCommand :
    ((asked bothSpans (.command 0x200000E4 [])).requests = [.command 0x200000E4 []] ∧
      decode 0x200000E4 [] = .ok (.push 0xE4)) ∧
    ((asked bothSpans (.command 0x00000000 [])).requests = [.command 0x00000000 []] ∧
      ∀ i, decode 0x00000000 [] ≠ .ok i) :=
  ⟨⟨rfl, rfl⟩, rfl, zero_word_is_no_command⟩

theorem witness_OneResponsePerTransaction :
    seen (fun t => t.responses) (step (asked bothSpans (.command 0x00000000 []))) = some [0x3000000000000000] := by decide

theorem witness_NothingHappensWithoutARequest : bothSpans.requests = [] := rfl

/-- For every statement that assumes `Inv`: READY with both spans outstanding, and UNCONFIGURED. -/
theorem witness_Inv : bothSpans.Inv ∧ fresh.Inv :=
  ⟨bothSpans_inv, fresh_registerInv, by decide, by decide⟩

theorem witness_RegisterInv : bothSpans.RegisterInv ∧ fresh.RegisterInv := ⟨bothSpans_registerInv, fresh_registerInv⟩

theorem witness_ResetInput : (asked bothSpans .reset).requests = [.reset] := rfl

/-! Lifecycle and span protocol. -/

theorem witness_LifecycleRefusals :
    (fresh.configured = false ∧ ∀ m0, Instr.clrerr ≠ .init m0) ∧
    ((ready 0 0).configured = true ∧ ∃ m0, Instr.init 4 = .init m0) :=
  ⟨⟨rfl, fun _ h => nomatch h⟩, rfl, 4, rfl⟩

/-- Refused and accepted, at the bound `len = ws_len` and one above it, on both sides. -/
theorem witness_SpanProtocolRefusals :
    bothSpans.configured = true ∧ bothSpans.InRange ∧ bothSpans.wsOpen = true ∧ bothSpans.rsOpen = true ∧
    (5 : Index).toNat > bothSpans.wsLen.toNat ∧ ¬ (4 : Index).toNat > bothSpans.wsLen.toNat ∧
    (5 : Index).toNat > bothSpans.rsLen.toNat ∧ ¬ (4 : Index).toNat > bothSpans.rsLen.toNat ∧
    v44a.configured = true ∧ v44a.InRange ∧ v44a.wsOpen = false ∧ v44a.rsOpen = false ∧
    ∀ m0, Instr.commitw 5 ≠ .init m0 :=
  ⟨rfl, bothSpans_inRange, rfl, rfl, by decide, by decide, by decide, by decide, rfl, v44a_inRange, rfl, rfl,
    fun _ h => nomatch h⟩

/-! The commands: a state for each clause, at the bounds. -/

/-- `2*8 = 16` is accepted, 9 and 0 are not. -/
theorem witness_InitConstructsOrIsRefused :
    (ready 0 0).configured = true ∧ fresh.configured = false ∧ (0 : Index).toNat = 0 ∧ 2 * (9 : Index).toNat > fresh.total ∧
    0 < (8 : Index).toNat ∧ 2 * (8 : Index).toNat ≤ fresh.total ∧ 0 < (1 : Index).toNat := by decide

/-- Full at `w = ll`, and one place short of full. -/
theorem witness_PushStoresMirrorsAndAdvances :
    fresh.configured = false ∧ bothSpans.wsOpen = true ∧ (ready 11 0).configured = true ∧ (ready 11 0).wsOpen = false ∧
    (ready 11 0).InRange ∧ nextIndex (ready 11 0).cap (ready 11 0).w = (ready 11 0).r ∧ (ready 2 10).InRange ∧
    nextIndex (ready 2 10).cap (ready 2 10).w ≠ (ready 2 10).r :=
  ⟨rfl, rfl, rfl, rfl, full_inRange, by decide, ready_inRange, by decide⟩

theorem witness_PopReturnsTheOldestByte :
    fresh.configured = false ∧ bothSpans.rsOpen = true ∧ (ready 0 0).configured = true ∧ (ready 0 0).rsOpen = false ∧
    (ready 0 0).InRange ∧ (ready 0 0).r = (ready 0 0).w ∧ v44a.configured = true ∧ v44a.rsOpen = false ∧ v44a.InRange ∧
    v44a.r ≠ v44a.w :=
  ⟨rfl, rfl, rfl, rfl, empty_inRange, rfl, rfl, rfl, v44a_inRange, by decide⟩

/-- `free = 7`: seven bytes fit exactly, eight do not, none always fit; full: one does not fit. -/
theorem witness_BulkWriteStoresWhatFits :
    (Instr.bulkw 7 [1, 2, 3, 4, 5, 6, 7]).wellFormed = true ∧ (Instr.bulkw 8 [1, 2, 3, 4, 5, 6, 7, 8]).wellFormed = true ∧
    (Instr.bulkw 0 []).wellFormed = true ∧ v44a.configured = true ∧ v44a.wsOpen = false ∧ v44a.InRange ∧ v44a.MemoryInv ∧
    (7 : Index).toNat ≤ v44a.free ∧ (8 : Index).toNat > v44a.free ∧ (ready 11 0).InRange ∧ (ready 11 0).free = 0 :=
  ⟨by decide, by decide, by decide, rfl, rfl, v44a_inRange, by decide, by decide, by decide, full_inRange, by decide⟩

/-- A zero grant of a full buffer and of `max_len = 0`, a grant of one, and the cap at `m` across the wrap. -/
theorem witness_AllocWriteGrantsASpan :
    (ready 11 0).InRange ∧ (ready 11 0).writeGrant 4 = 0 ∧ v44a.wsOpen = false ∧ v44a.writeGrant 0 = 0 ∧
    v44a.writeGrant 1 = 1 ∧ (ready 11 5).writeGrant 6 = 4 ∧ bothSpans.wsOpen = true :=
  ⟨full_inRange, by decide, rfl, by decide, by decide, by decide, rfl⟩

/-- A full buffer, and `max_len = 0` on one with free space. -/
theorem witness_ZeroWriteGrantExactly :
    (ready 11 0).configured = true ∧ (ready 11 0).InRange ∧ (ready 11 0).wsOpen = false ∧ (ready 11 0).free = 0 ∧
    v44a.configured = true ∧ v44a.InRange ∧ v44a.wsOpen = false ∧ v44a.free = 7 :=
  ⟨rfl, full_inRange, rfl, by decide, rfl, v44a_inRange, rfl, by decide⟩

theorem witness_GrantsAreContiguousAndBounded :
    v44a.InRange ∧ (4 : Index).toNat ≤ v44a.m ∧ v44a.r + v44a.readGrant 4 > v44a.cap ∧
    (ready 11 5).w + (ready 11 5).writeGrant 6 > (ready 11 5).cap := ⟨v44a_inRange, by decide, by decide, by decide⟩

/-- The whole span and nothing of it; one byte too many; both copy steps at once in V43-c. -/
theorem witness_CommitWriteMirrorsAndRelocates :
    fresh.configured = false ∧ v44a.wsOpen = false ∧ s1.configured = true ∧ s1.wsOpen = true ∧ s1.InRange ∧
    (4 : Index).toNat ≤ s1.wsLen.toNat ∧ (0 : Index).toNat ≤ s1.wsLen.toNat ∧ (5 : Index).toNat > s1.wsLen.toNat ∧
    v43c.configured = true ∧ v43c.wsOpen = true ∧ v43c.InRange ∧ (4 : Index).toNat ≤ v43c.wsLen.toNat :=
  ⟨rfl, rfl, rfl, rfl, s1_inRange, by decide, by decide, by decide, rfl, rfl, v43c_inRange, by decide⟩

/-- Empty; a zero grant on data; a grant across the wrap. -/
theorem witness_AllocReadGrantsASpan :
    (ready 0 0).rsOpen = false ∧ (ready 0 0).r = (ready 0 0).w ∧ v44a.rsOpen = false ∧ v44a.r ≠ v44a.w ∧
    v44a.readGrant 0 = 0 ∧ v44a.readGrant 4 = 4 ∧ v44a.readGrant 65535 = 4 ∧ bothSpans.rsOpen = true := by decide

theorem witness_CommitReadReleases :
    fresh.configured = false ∧ v44a.configured = true ∧ v44a.rsOpen = false ∧ bothSpans.configured = true ∧
    bothSpans.rsOpen = true ∧ (4 : Index).toNat ≤ bothSpans.rsLen.toNat ∧ (0 : Index).toNat ≤ bothSpans.rsLen.toNat ∧
    (5 : Index).toNat > bothSpans.rsLen.toNat := by decide

/-- For the four status commands. -/
theorem witness_StatusCommands : fresh.configured = false ∧ (ready 3 5).configured = true := by decide

/-! The span port. -/

/-- The read span `[10, 14)`: its first and last index, and one on each side. -/
theorem witness_SpanReadIsGuarded :
    (asked bothSpans (.spanRd 13)).requests = [.spanRd 13] ∧ bothSpans.RegisterInv ∧ bothSpans.configured = true ∧
    bothSpans.rsOpen = true ∧ bothSpans.r ≤ (10 : Index).toNat ∧ (13 : Index).toNat < bothSpans.r + bothSpans.rsLen.toNat ∧
    ¬ bothSpans.r ≤ (9 : Index).toNat ∧ ¬ (14 : Index).toNat < bothSpans.r + bothSpans.rsLen.toNat :=
  ⟨rfl, bothSpans_registerInv, rfl, rfl, by decide, by decide, by decide, by decide⟩

/-- The write span `[2, 6)`: its first and last index, and one on each side. -/
theorem witness_SpanWriteIsGuarded :
    (asked bothSpans (.spanWr 5 0xEE)).requests = [.spanWr 5 0xEE] ∧ bothSpans.RegisterInv ∧ bothSpans.wsOpen = true ∧
    bothSpans.w ≤ (2 : Index).toNat ∧ (5 : Index).toNat < bothSpans.w + bothSpans.wsLen.toNat ∧
    ¬ bothSpans.w ≤ (1 : Index).toNat ∧ ¬ (6 : Index).toNat < bothSpans.w + bothSpans.wsLen.toNat :=
  ⟨rfl, bothSpans_registerInv, rfl, by decide, by decide, by decide, by decide⟩

/-- For WriteSpanIsExclusive, ReadSpanIsStable, ReadSpanIsContiguous and WriteSpanImagesAreFree: a step that really is taken
(a COMMITW), with both spans outstanding, at the last index of each. -/
theorem witness_OutstandingSpans :
    (asked bothSpans (.command 0x60000004 [])).Inv ∧ bothSpans.configured = true ∧ bothSpans.wsOpen = true ∧
    bothSpans.rsOpen = true ∧ (∀ q b rest, (asked bothSpans (.command 0x60000004 [])).requests ≠ .spanWr q b :: rest) ∧
    (bothSpans.w ≤ 5 ∧ 5 < bothSpans.w + bothSpans.wsLen.toNat) ∧
    (bothSpans.r ≤ 13 ∧ 13 < bothSpans.r + bothSpans.rsLen.toNat) ∧ 3 < bothSpans.rsLen.toNat ∧
    seen (fun t => t.w) (step (asked bothSpans (.command 0x60000004 []))) = some 6 :=
  ⟨bothSpans_inv, rfl, rfl, rfl, by simp [asked], by decide, by decide, by decide, by decide⟩

/-! The pointer engine: both ends of the ranges, and the smallest ring. -/

theorem witness_AdvanceIsAdditionModuloCapacity :
    (1 ≤ 12 ∧ 11 ≤ 12 - 1 ∧ 11 ≤ 12 - 1) ∧ (1 ≤ 1 ∧ 0 ≤ 1 - 1) ∧ advIndex 12 11 11 = 10 ∧ nextIndex 12 11 = 0 ∧
    nextIndex 1 0 = 0 := by decide

theorem witness_DistanceAndFreeSpace :
    (1 ≤ 12 ∧ 5 ≤ 12 - 1 ∧ 3 ≤ 12 - 1) ∧ distIndex 12 5 3 = 10 ∧ freeSpace 12 0 11 = 0 ∧ freeSpace 1 0 0 = 0 := by decide

/-! Invariants, conservation, writers. -/

/-- The premises of the invariant statements hold in a state from which a step is taken. -/
theorem witness_StepInvariants :
    (asked bothSpans (.command 0x60000004 [])).Inv ∧
    seen (fun t => (t.w, t.wsOpen)) (step (asked bothSpans (.command 0x60000004 []))) = some (6, false) :=
  ⟨bothSpans_inv, by decide⟩

/-- The whole span committed, one byte too many, and a COMMITW of nothing and of one byte with no span open. -/
theorem witness_StepKeepsWholeHeadMirror :
    (asked bothSpans (.command 0x60000004 [])).Inv ∧ bothSpans.configured = true ∧
    (asked bothSpans (.command 0x60000004 [])).HeadMirrored ∧
    (asked bothSpans (.command 0x60000004 [])).nextCommand = some (.commitw 4) ∧
    bothSpans.wsLen.toNat ≤ (4 : Index).toNat ∧ bothSpans.wsLen.toNat ≤ (5 : Index).toNat ∧
    v44a.wsLen.toNat ≤ (0 : Index).toNat ∧ v44a.wsLen.toNat ≤ (1 : Index).toNat :=
  ⟨bothSpans_inv, rfl, bothSpans_headMirrored, rfl, by decide, by decide, by decide, by decide⟩

/-- A COMMITR of three of the four bytes: three delivered, one still live. -/
theorem witness_StepConservesTheByteStream :
    (asked bothSpans (.command 0x80000003 [])).Inv ∧ (∀ rest, (asked bothSpans (.command 0x80000003 [])).requests ≠ .reset :: rest) ∧
    (asked bothSpans (.command 0x80000003 [])).deliveredNow = [0xE0, 0xE1, 0xE2] ∧
    seen (fun t => t.liveBytes) (step (asked bothSpans (.command 0x80000003 []))) = some [0xE3] :=
  ⟨bothSpans_inv, by simp [asked], by decide, by decide⟩

/-- A run of two steps: a COMMITW and a COMMITR. -/
theorem witness_RunConservesTheByteStream :
    let s := { bothSpans with requests := [.command 0x60000001 [], .command 0x80000004 []] }
    s.Inv ∧ s.NoResetChosen ∧ seen (fun t => t.liveBytes) (Sys2Proof.core.run 2 s) = some [0x00] :=
  ⟨bothSpans_inv, by decide, by decide⟩

theorem witness_ConfigurationIsFixedUntilReset :
    bothSpans.configured = true ∧ (∀ rest, (asked bothSpans (.spanRd 0)).requests ≠ .reset :: rest) ∧
    seen (fun t => t.m) (step (asked bothSpans (.spanRd 0))) = some 4 := ⟨rfl, by simp [asked], by decide⟩

/-- POP keeps `w`, PUSH keeps `r`. -/
theorem witness_CursorsHaveTheirOwnWriters :
    ((∀ m0, Instr.pop ≠ .init m0) ∧ (∀ v, Instr.pop ≠ .push v) ∧ (∀ len data, Instr.pop ≠ .bulkw len data) ∧
      (∀ len, Instr.pop ≠ .commitw len) ∧ seen (fun t => (t.w, t.r)) (exec .pop v44a) = some (2, 11)) ∧
    ((∀ m0, Instr.push 9 ≠ .init m0) ∧ Instr.push 9 ≠ .pop ∧ (∀ len, Instr.push 9 ≠ .commitr len) ∧
      seen (fun t => (t.w, t.r)) (exec (.push 9) v44a) = some (3, 10)) :=
  ⟨⟨by simp, by simp, by simp, by simp, by decide⟩, by simp, by simp, by simp, by decide⟩

/-- A step that clears `err`, one that sets Overflow and one that sets Underflow. -/
theorem witness_StickyErrorHasItsOwnWriters :
    seen (fun t => t.err) (step (asked s1 (.command 0xC0000000 []))) = some .none ∧ s1.err = .overflow ∧
    seen (fun t => t.err) (step (asked (ready 11 0) (.command 0x20000001 []))) = some .overflow ∧
    seen (fun t => t.err) (step (asked (ready 0 0) (.command 0x70000001 []))) = some .underflow := by decide

/-- The premises hold of a COMMITW with both spans outstanding, and of a PUSH on a full buffer. -/
theorem witness_FaultsAreExactlyTheTable :
    (bothSpans.configured = true ∧ bothSpans.InRange ∧
      (bothSpans.wsOpen = true → (Instr.commitw 4).opcode ≠ 0x2 ∧ (Instr.commitw 4).opcode ≠ 0x4 ∧
        (Instr.commitw 4).opcode ≠ 0x5) ∧
      (bothSpans.rsOpen = true → (Instr.commitw 4).opcode ≠ 0x3 ∧ (Instr.commitw 4).opcode ≠ 0x7) ∧
      (∀ len, Instr.commitw 4 = .commitw len → bothSpans.wsOpen = true ∧ len.toNat ≤ bothSpans.wsLen.toNat) ∧
      (∀ len, Instr.commitw 4 ≠ .commitr len) ∧ ∀ m0, Instr.commitw 4 ≠ .init m0) ∧
    ((ready 11 0).configured = true ∧ (ready 11 0).InRange ∧ (ready 11 0).wsOpen = false ∧ (ready 11 0).rsOpen = false ∧
      (∀ len, Instr.push 1 ≠ .commitw len) ∧ (∀ len, Instr.push 1 ≠ .commitr len) ∧ (∀ m0, Instr.push 1 ≠ .init m0) ∧
      nextIndex (ready 11 0).cap (ready 11 0).w = (ready 11 0).r) :=
  ⟨⟨rfl, bothSpans_inRange, by decide, by decide,
      fun len h => by rw [← Instr.commitw.inj h]; decide, by simp, by simp⟩,
    rfl, full_inRange, rfl, rfl, by simp, by simp, by simp, by decide⟩

theorem witness_StickyErrorInfluencesNoCommand :
    seen (fun t => (t.w, t.err, t.responses)) (exec (.push 9) { v44a with err := .underflow }) =
      some (3, .underflow, [0x0200000000000000]) ∧
    seen (fun t => (t.w, t.err, t.responses)) (exec (.push 9) v44a) = some (3, .none, [0]) ∧
    seen (fun t => t.responses) (exec .geterr { v44a with err := .underflow }) = some [0x0200000000000002] ∧
    seen (fun t => t.responses) (exec .geterr v44a) = some [0] := by decide

end Sys2Proof.Tests
end

section
/-! SUPPORT. The pointer engine as arithmetic modulo the capacity, and the contiguity of a read span (10_state R26 to R30, R38). -/

namespace Sys2Proof.Machine

variable {cap i n r w : Nat}

/-- One subtraction is the whole of `mod cap` where the sum stays below `2 * cap` (10_state R29). -/
theorem advIndex_eq_mod (h : 1 ≤ cap) (hi : i ≤ cap - 1) (hn : n ≤ cap - 1) : advIndex cap i n = (i + n) % cap := by
  unfold advIndex
  split
  · exact (Nat.mod_eq_of_lt (by omega)).symm
  · rw [Nat.mod_eq_sub_mod (by omega), Nat.mod_eq_of_lt (by omega)]

theorem nextIndex_eq_mod (h : 1 ≤ cap) (hi : i ≤ cap - 1) : nextIndex cap i = (i + 1) % cap := by
  unfold nextIndex
  split
  · rw [show i + 1 = cap by omega, Nat.mod_self]
  · exact (Nat.mod_eq_of_lt (by omega)).symm

theorem distIndex_eq_emod (h : 1 ≤ cap) (hr : r ≤ cap - 1) (hw : w ≤ cap - 1) :
    (distIndex cap r w : Int) = ((w : Int) - r) % cap := by
  unfold distIndex
  split
  · rw [Int.emod_eq_of_lt (by omega) (by omega)]; omega
  · rw [← Int.add_emod_right, Int.emod_eq_of_lt (by omega) (by omega)]; omega

theorem distIndex_add_freeSpace (hw : w ≤ cap - 1) : distIndex cap r w + freeSpace cap r w = cap - 1 := by
  have := distIndex_le (r := r) hw
  unfold freeSpace; omega

/-- A `next` of a write cursor that is not full lengthens the data by one byte: the step of length one of
`distIndex_advIndex_write`. -/
theorem distIndex_nextIndex (h : 1 ≤ cap) (hr : r ≤ cap - 1) (hw : w ≤ cap - 1) (hfull : nextIndex cap w ≠ r) :
    distIndex cap r (nextIndex cap w) = distIndex cap r w + 1 := by
  have hfree : 1 ≤ freeSpace cap r w := by
    have := mt (freeSpace_eq_zero h hr hw).1 hfull
    omega
  have hsum := distIndex_add_freeSpace (r := r) hw
  rw [nextIndex_eq_advIndex hw (by omega), distIndex_advIndex_write hr hw hfree]

/-- Settles O37: each clause is the definition, or one of the lemmas above. -/
theorem advanceIsAdditionModuloCapacity : Obligations.AdvanceIsAdditionModuloCapacity := by
  intro cap i n h hi hn
  have hadv := advIndex_lt h hi hn
  have hnext := nextIndex_lt h hi
  exact ⟨rfl, advIndex_eq_mod h hi hn, by omega, rfl, nextIndex_eq_mod h hi, by omega,
    fun h2 => (nextIndex_eq_advIndex hi h2).symm⟩

/-- Settles O38, from the laws of `dist` and `free`. -/
theorem distanceAndFreeSpace : Obligations.DistanceAndFreeSpace := by
  intro cap r w h hr hw
  exact ⟨distIndex_eq_emod h hr hw, distIndex_le hw, distIndex_eq_zero hr hw, advIndex_distIndex hr hw,
    distIndex_nextIndex h hr hw, Nat.sub_le _ _, distIndex_add_freeSpace hw, freeSpace_eq_zero h hr hw⟩

/-- Settles O35: up to the last real index the two addresses are the same; past it the contiguous one is the mirror cell of a
live head byte, since a span that reaches the mirror region is at most `m` long. -/
theorem readSpanIsContiguous : Obligations.ReadSpanIsContiguous := by
  rintro s ⟨⟨-, hrange⟩, -, hlive⟩ hc hopen j hj
  obtain ⟨⟨-, -, -, hr⟩, -, -, -, hspan⟩ := hrange hc
  obtain ⟨-, hdist, -, hcut⟩ := hspan hopen
  have ebl : s.bl = s.m - 1 := rfl
  have ell : s.ll = s.cap - 1 := rfl
  by_cases hin : s.r + j ≤ s.cap - 1
  · rw [advIndex, if_pos hin]
  · have hadv : advIndex s.cap s.r j = s.r + j - s.cap := if_neg hin
    rw [← hlive hc j (by omega) (by omega), show advIndex s.cap s.r j + s.cap = s.r + j by omega]

end Sys2Proof.Machine
end

section
/-! SUPPORT. What a step of a READY block does to the ring of live bytes: it releases some of the oldest, appends some behind
the newest, and otherwise changes only cells that hold no live byte. From that alone follow the invariant after the step and
the conservation of the byte stream (10_state R31 to R33, R37). -/

namespace Sys2Proof.Machine

/-! ### The outstanding spans in range -/

/-- 10_state R31 for one span: `base` and `avail` are the cursor it starts at and the bytes it may take. -/
def SpanInRange (cap m total : Nat) (isOpen : Bool) (len : Index) (base avail : Nat) : Prop :=
  (isOpen = false → len = 0) ∧
  (isOpen = true → 1 ≤ len.toNat ∧ len.toNat ≤ avail ∧ base + len.toNat ≤ total - 1 ∧
    (base + len.toNat > cap → len.toNat ≤ m))

/-- The write span of `s` is closed with length 0, or open and within the free space. -/
def State.WriteSpanInRange (s : State) : Prop := SpanInRange s.cap s.m s.total s.wsOpen s.wsLen s.w s.free

/-- The read span of `s` is closed with length 0, or open and within the live bytes. -/
def State.ReadSpanInRange (s : State) : Prop := SpanInRange s.cap s.m s.total s.rsOpen s.rsLen s.r s.dist

theorem State.inRange_iff {s : State} : s.InRange ↔
    (1 ≤ s.m ∧ 2 * s.m ≤ s.total ∧ s.w ≤ s.ll ∧ s.r ≤ s.ll) ∧ s.WriteSpanInRange ∧ s.ReadSpanInRange := by
  simp only [State.InRange, State.WriteSpanInRange, State.ReadSpanInRange, SpanInRange, and_assoc]

section Spans

variable {cap m total base avail : Nat} {isOpen : Bool} {len : Index}

theorem spanInRange_closed : SpanInRange cap m total false 0 base avail := ⟨fun _ => rfl, nofun⟩

/-- A span stays in range when more becomes available to it. -/
theorem SpanInRange.mono {avail' : Nat} (h : SpanInRange cap m total isOpen len base avail) (hle : avail ≤ avail') :
    SpanInRange cap m total isOpen len base avail' :=
  ⟨h.1, fun ho => by
    obtain ⟨hpos, hfit, hend, hcut⟩ := h.2 ho
    exact ⟨hpos, hfit.trans hle, hend, hcut⟩⟩

theorem toIndex_toNat {n : Nat} (h : n < 65536) : (toIndex n).toNat = n := Nat.mod_eq_of_lt h

/-- A grant that is not zero opens a span in range (43_write_span R146, 44_read_span R166). -/
theorem spanInRange_grant {maxLen : Nat} (hm : 1 ≤ m) (htotal : cap + m = total) (hsize : total < 65536)
    (hbase : base ≤ cap - 1) (havail : avail ≤ cap - 1) (hpos : grantLength cap m base maxLen avail ≠ 0) :
    SpanInRange cap m total true (toIndex (grantLength cap m base maxLen avail)) base avail := by
  have hfit : grantLength cap m base maxLen avail ≤ avail := by unfold grantLength; dsimp only; split <;> omega
  have hend : base + grantLength cap m base maxLen avail ≤ total - 1 := by unfold grantLength; dsimp only; split <;> omega
  have hcut : base + grantLength cap m base maxLen avail > cap → grantLength cap m base maxLen avail ≤ m := by
    unfold grantLength; dsimp only; split <;> omega
  refine ⟨nofun, fun _ => ?_⟩
  rw [toIndex_toNat (by omega)]
  exact ⟨by omega, hfit, hend, hcut⟩

end Spans

/-! ### The ring of a block in range -/

variable {s t u : State} {out inp : List Byte}

theorem State.Inv.inRange (h : s.Inv) (hc : s.configured = true) : s.InRange := by
  obtain ⟨⟨-, hrange⟩, -⟩ := h
  exact hrange hc

theorem State.Inv.memory (h : s.Inv) : s.MemoryInv := by
  obtain ⟨-, hmem, -⟩ := h
  exact hmem

theorem State.total_lt (s : State) : s.total < 65536 := s.totalSize.isLt

theorem State.InRange.write_le (h : s.InRange) : s.w ≤ s.cap - 1 := by
  obtain ⟨⟨-, -, hw, -⟩, -⟩ := h
  exact hw

theorem State.InRange.read_le (h : s.InRange) : s.r ≤ s.cap - 1 := by
  obtain ⟨⟨-, -, -, hr⟩, -⟩ := h
  exact hr

theorem State.InRange.cap_add_m (h : s.InRange) : s.cap + s.m = s.total := by
  obtain ⟨⟨-, hm, -⟩, -⟩ := h
  unfold State.cap; omega

theorem State.InRange.m_pos (h : s.InRange) : 1 ≤ s.m := h.1.1

theorem State.InRange.m_le_cap (h : s.InRange) : s.m ≤ s.cap := by
  obtain ⟨⟨-, hm, -⟩, -⟩ := h
  unfold State.cap; omega

theorem State.InRange.cap_pos (h : s.InRange) : 1 ≤ s.cap := h.m_pos.trans h.m_le_cap

theorem State.InRange.dist_add_free (h : s.InRange) : s.dist + s.free = s.cap - 1 := distIndex_add_freeSpace h.write_le

theorem State.InRange.toIndex_advIndex (h : s.InRange) {i n : Nat} (hi : i ≤ s.cap - 1) (hn : n ≤ s.cap - 1) :
    (toIndex (advIndex s.cap i n)).toNat = advIndex s.cap i n :=
  toIndex_toNat (by
    have := advIndex_lt h.cap_pos hi hn
    have := h.cap_add_m
    have := s.total_lt
    omega)

/-- The free indices follow on the live ones: `adv(w, k) = adv(r, dist + k)` (10_state R27, R29). -/
theorem State.InRange.advIndex_write (h : s.InRange) {k : Nat} (hk : k ≤ s.free) :
    advIndex s.cap s.w k = advIndex s.cap s.r (s.dist + k) := by
  have := h.dist_add_free
  rw [advIndex_add h.read_le (by omega), State.dist, advIndex_distIndex h.read_le h.write_le]

theorem State.InRange.advIndex_write_lt (h : s.InRange) {k : Nat} (hk : k ≤ s.free) : advIndex s.cap s.w k < s.cap := by
  have := h.dist_add_free
  exact advIndex_lt h.cap_pos h.write_le (by omega)

theorem State.InRange.live_lt (h : s.InRange) {i : Nat} (hi : s.Live i) : i < s.cap := by
  obtain ⟨j, hj, rfl⟩ := hi
  have := h.dist_add_free
  exact advIndex_lt h.cap_pos h.read_le (by omega)

/-- No live byte lies on a free index (10_state R32). -/
theorem State.InRange.live_ne_advIndex_write (h : s.InRange) {i k : Nat} (hi : s.Live i) (hk : k ≤ s.free) :
    i ≠ advIndex s.cap s.w k := by
  obtain ⟨j, hj, rfl⟩ := hi
  have := h.dist_add_free
  rw [h.advIndex_write hk]
  intro heq
  have := advIndex_injective (by omega) (by omega) heq
  omega

/-- Outside the free indices and their mirror cells `t` has the bytes of `s`. -/
def KeepsUsedCells (s t : State) : Prop :=
  ∀ a, (∀ k ≤ s.free, a ≠ advIndex s.cap s.w k ∧ a ≠ advIndex s.cap s.w k + s.cap) → t.byteAt a = s.byteAt a

/-- Where only free cells change, a live byte and its mirror cell do not. -/
theorem KeepsUsedCells.live (h : KeepsUsedCells s t) (hs : s.InRange) {i : Nat} (hi : s.Live i) :
    t.byteAt i = s.byteAt i ∧ t.byteAt (i + s.cap) = s.byteAt (i + s.cap) := by
  have hlt := hs.live_lt hi
  constructor
  · exact h i fun k hk => ⟨hs.live_ne_advIndex_write hi hk, by omega⟩
  · refine h _ fun k hk => ⟨?_, ?_⟩
    · have := hs.advIndex_write_lt hk
      omega
    · have := hs.live_ne_advIndex_write hi hk
      omega

/-! ### The live bytes as a list -/

theorem State.liveBytes_of_configured (hc : s.configured = true) :
    s.liveBytes = (List.range s.dist).map fun j => s.byteAt (advIndex s.cap s.r j) := if_pos hc

theorem State.length_liveBytes (hc : s.configured = true) : s.liveBytes.length = s.dist := by
  simp [State.liveBytes_of_configured hc]

theorem State.getElem_liveBytes (hc : s.configured = true) {j : Nat} (hj : j < s.liveBytes.length) :
    s.liveBytes[j] = s.byteAt (advIndex s.cap s.r j) := by
  simp [State.liveBytes_of_configured hc]

/-! ### A move of the ring -/

/-- The fields that no step of a READY block but a reset writes are the same. -/
structure SameSetup (s t : State) : Prop where
  requests : t.requests = s.requests
  configured : t.configured = s.configured
  total : t.total = s.total
  m : t.m = s.m

theorem SameSetup.cap (h : SameSetup s t) : t.cap = s.cap := by rw [State.cap, State.cap, h.total, h.m]

theorem SameSetup.bl (h : SameSetup s t) : t.bl = s.bl := by rw [State.bl, State.bl, h.m]

/-- `t` is `s` with its oldest live bytes `out` released and the bytes `inp` appended behind its newest, head bytes mirrored. -/
structure RingMove (s t : State) (out inp : List Byte) : Prop where
  setup : SameSetup s t
  released : out <+: s.liveBytes
  fits : inp.length ≤ s.free
  read : t.r = advIndex s.cap s.r out.length
  write : t.w = advIndex s.cap s.w inp.length
  kept : KeepsUsedCells s t
  stored : ∀ k (hk : k < inp.length), t.byteAt (advIndex s.cap s.w k) = inp[k] ∧
    (advIndex s.cap s.w k ≤ s.bl → t.byteAt (advIndex s.cap s.w k + s.cap) = inp[k])

namespace RingMove

theorem length_out_le (h : RingMove s t out inp) (hc : s.configured = true) : out.length ≤ s.dist :=
  (State.length_liveBytes hc) ▸ h.released.length_le

theorem dist_eq (h : RingMove s t out inp) (hs : s.InRange) (hc : s.configured = true) :
    t.dist = s.dist + inp.length - out.length := by
  have hout := h.length_out_le hc
  have hfits := h.fits
  have hw : advIndex s.cap s.w inp.length < s.cap := hs.advIndex_write_lt hfits
  have hdist : distIndex s.cap s.r (advIndex s.cap s.w inp.length) = s.dist + inp.length :=
    distIndex_advIndex_write hs.read_le hs.write_le hfits
  rw [State.dist, h.setup.cap, h.read, h.write, distIndex_advIndex_read hs.read_le (by omega) (by omega), hdist]

theorem write_lt (h : RingMove s t out inp) (hs : s.InRange) : t.w < s.cap := h.write ▸ hs.advIndex_write_lt h.fits

theorem read_lt (h : RingMove s t out inp) (hs : s.InRange) (hc : s.configured = true) : t.r < s.cap := by
  have := h.length_out_le hc
  have := hs.dist_add_free
  exact h.read ▸ advIndex_lt hs.cap_pos hs.read_le (by omega)

theorem free_eq (h : RingMove s t out inp) (hs : s.InRange) (hc : s.configured = true) :
    t.free = s.free + out.length - inp.length := by
  have hdist := h.dist_eq hs hc
  have hout := h.length_out_le hc
  have hsum := hs.dist_add_free
  have hsum' : t.dist + t.free = s.cap - 1 := by
    have hw := h.write_lt hs
    rw [← h.setup.cap]
    exact distIndex_add_freeSpace (by rw [h.setup.cap]; omega)
  omega

/-- The `j`-th live byte after the move was the `j + |out|`-th before it, or is one of the appended bytes. -/
theorem index_cases (h : RingMove s t out inp) (hs : s.InRange) (hc : s.configured = true) {j : Nat} (hj : j < t.dist) :
    (out.length + j < s.dist ∧ advIndex t.cap t.r j = advIndex s.cap s.r (out.length + j)) ∨
      ∃ k < inp.length, out.length + j = s.dist + k ∧ advIndex t.cap t.r j = advIndex s.cap s.w k := by
  rw [h.dist_eq hs hc] at hj
  have hsum := hs.dist_add_free
  have hfits := h.fits
  rw [h.setup.cap, h.read, ← advIndex_add hs.read_le (by omega)]
  by_cases hlive : out.length + j < s.dist
  · exact .inl ⟨hlive, rfl⟩
  · refine .inr ⟨out.length + j - s.dist, by omega, by omega, ?_⟩
    rw [hs.advIndex_write (by omega), show s.dist + (out.length + j - s.dist) = out.length + j by omega]

/-- First in, first out: what is released, then what is live after, is what was live before, then what is appended. -/
theorem stream (h : RingMove s t out inp) (hs : s.InRange) (hc : s.configured = true) :
    out ++ t.liveBytes = s.liveBytes ++ inp := by
  have hct : t.configured = true := h.setup.configured.trans hc
  obtain ⟨rest, hrest⟩ := h.released
  have hlen : out.length + rest.length = s.dist := by
    rw [← List.length_append, hrest, State.length_liveBytes hc]
  have hdist := h.dist_eq hs hc
  rw [← hrest, List.append_assoc, List.append_cancel_left_eq]
  refine List.ext_getElem (by rw [State.length_liveBytes hct, List.length_append]; omega) fun j hj _ => ?_
  rw [State.getElem_liveBytes hct]
  rw [State.length_liveBytes hct] at hj
  rcases h.index_cases hs hc hj with ⟨hlt, heq⟩ | ⟨k, hk, hjk, heq⟩
  · rw [heq, (h.kept.live hs ⟨_, hlt, rfl⟩).1, List.getElem_append_left (by omega),
      ← State.getElem_liveBytes hc (by rw [State.length_liveBytes hc]; exact hlt)]
    simp only [← hrest]
    simp
  · obtain rfl : j = rest.length + k := by omega
    rw [heq, (h.stored k hk).1, List.getElem_append_right (by omega)]
    simp

theorem liveMirrored (h : RingMove s t out inp) (hs : s.InRange) (hc : s.configured = true) (hlive : s.LiveMirrored) :
    t.LiveMirrored := by
  intro _ j hj hhead
  rw [h.setup.bl] at hhead
  rcases h.index_cases hs hc hj with ⟨hlt, heq⟩ | ⟨k, hk, -, heq⟩
  · obtain ⟨hbyte, hmirror⟩ := h.kept.live hs ⟨_, hlt, rfl⟩
    rw [heq] at hhead ⊢
    rw [h.setup.cap, hbyte, hmirror]
    exact hlive hc _ hlt hhead
  · obtain ⟨hbyte, hmirror⟩ := h.stored k hk
    rw [heq] at hhead ⊢
    rw [h.setup.cap, hbyte, hmirror hhead]

/-- A write span that the move does not touch stays in range: a step that appends keeps none open. -/
theorem writeSpanInRange (h : RingMove s t out inp) (hs : s.InRange) (hc : s.configured = true)
    (hopen : t.wsOpen = s.wsOpen) (hlen : t.wsLen = s.wsLen) (hidle : inp = [] ∨ s.wsOpen = false) :
    t.WriteSpanInRange := by
  obtain ⟨-, hspan, -⟩ := State.inRange_iff.1 hs
  rw [State.WriteSpanInRange, h.setup.cap, h.setup.m, h.setup.total, hopen, hlen]
  rcases hidle with rfl | hclosed
  · rw [h.write, List.length_nil, advIndex_zero hs.write_le]
    exact hspan.mono (by rw [h.free_eq hs hc]; simp)
  · rw [hclosed, hspan.1 hclosed]
    exact spanInRange_closed

/-- A read span that the move does not touch stays in range: a step that releases keeps none open. -/
theorem readSpanInRange (h : RingMove s t out inp) (hs : s.InRange) (hc : s.configured = true)
    (hopen : t.rsOpen = s.rsOpen) (hlen : t.rsLen = s.rsLen) (hidle : out = [] ∨ s.rsOpen = false) :
    t.ReadSpanInRange := by
  obtain ⟨-, -, hspan⟩ := State.inRange_iff.1 hs
  rw [State.ReadSpanInRange, h.setup.cap, h.setup.m, h.setup.total, hopen, hlen]
  rcases hidle with rfl | hclosed
  · rw [h.read, List.length_nil, advIndex_zero hs.read_le]
    exact hspan.mono (by rw [h.dist_eq hs hc]; simp)
  · rw [hclosed, hspan.1 hclosed]
    exact spanInRange_closed

end RingMove

/-! ### Conservation by one step -/

/-- The step from `s` to `t` keeps the invariant and the environment's further steps, and conserves the byte stream when it
delivers `out` and accepts `inp` (10_state R37). -/
structure Conserves (s t : State) (out inp : List Byte) : Prop where
  inv : t.Inv
  requests : t.requests = s.requests
  stream : out ++ t.liveBytes = s.liveBytes ++ inp

/-- A move of the ring conserves the byte stream, with the storage canonical and the spans in range after it. -/
theorem RingMove.conserves (h : RingMove s t out inp) (hs : s.Inv) (hc : s.configured = true) (hmem : t.MemoryInv)
    (hwrite : t.WriteSpanInRange) (hread : t.ReadSpanInRange) : Conserves s t out inp := by
  have hr := hs.inRange hc
  obtain ⟨-, -, hlive⟩ := hs
  obtain ⟨⟨hm, hhalf, -⟩, -⟩ := State.inRange_iff.1 hr
  have hw := h.write_lt hr
  have hrd := h.read_lt hr hc
  have hct : t.configured = true := h.setup.configured.trans hc
  have hcursors : 1 ≤ t.m ∧ 2 * t.m ≤ t.total ∧ t.w ≤ t.ll ∧ t.r ≤ t.ll := by
    rw [State.ll, h.setup.m, h.setup.total, h.setup.cap]; omega
  have hregisters : t.RegisterInv :=
    ⟨fun hf => absurd (hct.symm.trans hf) nofun, fun _ => State.inRange_iff.2 ⟨hcursors, hwrite, hread⟩⟩
  exact ⟨⟨hregisters, hmem, h.liveMirrored hr hc hlive⟩, h.setup.requests, h.stream hr hc⟩

end Sys2Proof.Machine
end

section
/-! SUPPORT. Every command, every span-port request and every step but a reset conserves the byte stream (10_state R37). -/

namespace Sys2Proof.Machine

variable {s t u : State} {out inp : List Byte}

/-! ### How a command ends: no part of the ring changes -/

theorem Conserves.refl (hs : s.Inv) : Conserves s s [] [] := ⟨hs, rfl, (List.append_nil _).symm⟩

theorem Conserves.emit (h : Conserves s t out inp) (word : ResponseWord) : Conserves s (t.emit word) out inp :=
  ⟨h.inv, h.requests, h.stream⟩

theorem Conserves.reply (h : Conserves s t out inp) (answer : SpanReply) : Conserves s (t.reply answer) out inp :=
  ⟨h.inv, h.requests, h.stream⟩

theorem Conserves.respond (h : Conserves s t out inp) (ptr val : Index) :
    Conserves s (Machine.respond t ptr val) out inp := h.emit _

theorem Conserves.refuse (hs : s.Inv) (st : Status) : Conserves s (Machine.refuse st s) [] [] := (Conserves.refl hs).emit _

/-- `err` is no part of the ring; only an UNCONFIGURED block fixes it. -/
theorem Conserves.raiseFault (h : Conserves s t out inp) (hc : t.configured = true) (f : ErrorCode) :
    Conserves s (t.raiseFault f) out inp := by
  obtain ⟨⟨-, hrange⟩, hmem, hlive⟩ := h.inv
  exact ⟨⟨⟨fun hf => absurd (hc.symm.trans hf) nofun, hrange⟩, hmem, hlive⟩, h.requests, h.stream⟩

theorem Conserves.faultRespond (h : Conserves s t out inp) (hc : t.configured = true) (f : ErrorCode) (ptr val : Index) :
    Conserves s (Machine.faultRespond f t ptr val) out inp := (h.raiseFault hc f).emit _

/-! ### Moves of the read cursor -/

/-- The oldest `n` live bytes. -/
theorem State.oldest_prefix (hc : s.configured = true) {n : Nat} (hn : n ≤ s.dist) :
    ((List.range n).map fun j => s.byteAt (advIndex s.cap s.r j)) <+: s.liveBytes := by
  rw [State.liveBytes_of_configured hc]
  exact .map _ (List.prefix_iff_eq_take.2 (by rw [List.length_range, List.take_range, Nat.min_eq_left hn]))

/-- A step that writes no byte and leaves `w` alone, and takes `r` past the live bytes `out`. -/
theorem ringMove_release (hs : s.InRange) (setup : SameSetup s t) (hbyte : t.byteAt = s.byteAt) (hw : t.w = s.w)
    (hout : out <+: s.liveBytes) (hr : t.r = advIndex s.cap s.r out.length) : RingMove s t out [] where
  setup := setup
  released := hout
  fits := Nat.zero_le _
  read := hr
  write := hw.trans (advIndex_zero hs.write_le).symm
  kept := fun a _ => congrFun hbyte a
  stored := nofun

/-- A step that writes no byte and moves no cursor. -/
theorem ringMove_still (hs : s.InRange) (setup : SameSetup s t) (hbyte : t.byteAt = s.byteAt) (hw : t.w = s.w)
    (hr : t.r = s.r) : RingMove s t [] [] :=
  ringMove_release hs setup hbyte hw List.nil_prefix (hr.trans (advIndex_zero hs.read_le).symm)

section Commands

variable (hs : s.Inv) (hc : s.configured = true)
include hs hc

theorem conserves_openWrite {maxLen : Index} (hg : s.writeGrant maxLen ≠ 0) :
    Conserves s (s.openWrite (s.writeGrant maxLen)) [] [] := by
  have hr := hs.inRange hc
  obtain ⟨-, -, hread⟩ := State.inRange_iff.1 hr
  have hgrant : (s.openWrite (s.writeGrant maxLen)).WriteSpanInRange :=
    spanInRange_grant hr.m_pos hr.cap_add_m s.total_lt hr.write_le (Nat.sub_le _ _) hg
  have hm : RingMove s (s.openWrite (s.writeGrant maxLen)) [] [] := ringMove_still hr ⟨rfl, rfl, rfl, rfl⟩ rfl rfl rfl
  exact hm.conserves hs hc hs.memory hgrant hread

/-- ALLOCR opens a span in range, or none (44_read_span R168). -/
theorem conserves_grantRead (maxLen : Index) : Conserves s (s.grantRead (s.readGrant maxLen)) [] [] := by
  have hr := hs.inRange hc
  obtain ⟨-, hwrite, -⟩ := State.inRange_iff.1 hr
  by_cases hg : s.readGrant maxLen = 0
  · rw [State.grantRead, if_pos hg]
    exact .refl hs
  · rw [State.grantRead, if_neg hg]
    have hgrant : (s.openRead (s.readGrant maxLen)).ReadSpanInRange :=
      spanInRange_grant hr.m_pos hr.cap_add_m s.total_lt hr.read_le (distIndex_le hr.write_le) hg
    have hm : RingMove s (s.openRead (s.readGrant maxLen)) [] [] := ringMove_still hr ⟨rfl, rfl, rfl, rfl⟩ rfl rfl rfl
    exact hm.conserves hs hc hs.memory hwrite hgrant

/-- POP of a buffer that is not empty releases the oldest byte (41_byte_ops R126). -/
theorem conserves_pop (hidle : s.rsOpen = false) (hne : s.r ≠ s.w) :
    Conserves s (s.setRead (nextIndex s.cap s.r)) [s.byteAt s.r] [] := by
  have hr := hs.inRange hc
  have hsum := hr.dist_add_free
  have hdist : 1 ≤ s.dist := by
    have := mt (distIndex_eq_zero hr.read_le hr.write_le).1 hne
    rw [State.dist]; omega
  have hout : [s.byteAt s.r] <+: s.liveBytes := by
    simpa [advIndex_zero hr.read_le] using State.oldest_prefix hc hdist
  have hread : (s.setRead (nextIndex s.cap s.r)).r = advIndex s.cap s.r 1 := by
    rw [nextIndex_eq_advIndex hr.read_le (by omega)]
    exact hr.toIndex_advIndex hr.read_le (by omega)
  have hm : RingMove s (s.setRead (nextIndex s.cap s.r)) [s.byteAt s.r] [] :=
    ringMove_release hr ⟨rfl, rfl, rfl, rfl⟩ rfl rfl hout hread
  exact hm.conserves hs hc hs.memory (hm.writeSpanInRange hr hc rfl rfl (.inl rfl))
    (hm.readSpanInRange hr hc rfl rfl (.inr hidle))

/-- COMMITR releases the bytes at the front of its span, which are the oldest live bytes (44_read_span R170, 10_state R38). -/
theorem conserves_commitr {len : Nat} (hopen : s.rsOpen = true) (hlen : len ≤ s.rsLen.toNat) :
    Conserves s (s.setRead (s.releasedTo len)).closeRead (s.bytesFrom s.r len) [] := by
  have hr := hs.inRange hc
  obtain ⟨-, -, hspan⟩ := State.inRange_iff.1 hr
  obtain ⟨-, hfit, -⟩ := hspan.2 hopen
  have hsum := hr.dist_add_free
  have hlength : (s.bytesFrom s.r len).length = len := by simp [State.bytesFrom]
  have hout : s.bytesFrom s.r len <+: s.liveBytes := by
    have heq : s.bytesFrom s.r len = (List.range len).map fun j => s.byteAt (advIndex s.cap s.r j) :=
      List.map_congr_left fun j hj =>
        readSpanIsContiguous s hs hc hopen j ((List.mem_range.1 hj).trans_le hlen)
    rw [heq]
    exact State.oldest_prefix hc (hlen.trans hfit)
  have hread : ((s.setRead (s.releasedTo len)).closeRead).r = advIndex s.cap s.r (s.bytesFrom s.r len).length := by
    rw [hlength, releasedTo_eq]
    exact hr.toIndex_advIndex hr.read_le (by omega)
  have hm : RingMove s (s.setRead (s.releasedTo len)).closeRead (s.bytesFrom s.r len) [] :=
    ringMove_release hr ⟨rfl, rfl, rfl, rfl⟩ rfl rfl hout hread
  exact hm.conserves hs hc hs.memory (hm.writeSpanInRange hr hc rfl rfl (.inl rfl)) spanInRange_closed

end Commands

/-! ### Writes to free cells -/

theorem StorageOnly.setup (h : StorageOnly s u) : SameSetup s u := by
  rw [h.fields]; exact ⟨rfl, rfl, rfl, rfl⟩

theorem StorageOnly.w (h : StorageOnly s u) : u.w = s.w := by rw [h.fields]; rfl

theorem StorageOnly.r (h : StorageOnly s u) : u.r = s.r := by rw [h.fields]; rfl

theorem StorageOnly.spans (h : StorageOnly s u) :
    u.wsOpen = s.wsOpen ∧ u.wsLen = s.wsLen ∧ u.rsOpen = s.rsOpen ∧ u.rsLen = s.rsLen := by
  rw [h.fields]; exact ⟨rfl, rfl, rfl, rfl⟩

/-- The contiguous address of a place in the ring is its index, or the mirror cell of its index. -/
theorem add_eq_advIndex_or {cap i n : Nat} (h : 1 ≤ cap) : i + n = advIndex cap i n ∨ i + n = advIndex cap i n + cap := by
  unfold advIndex; split <;> omega

/-- A step that writes only free cells, and takes `w` past the bytes `inp` that stand there. -/
theorem ringMove_append (hs : s.InRange) (so : StorageOnly s u) (hkept : KeepsUsedCells s u) (hfit : inp.length ≤ s.free)
    (hstored : ∀ k (hk : k < inp.length), u.byteAt (advIndex s.cap s.w k) = inp[k] ∧
      (advIndex s.cap s.w k ≤ s.bl → u.byteAt (advIndex s.cap s.w k + s.cap) = inp[k])) :
    RingMove s (u.setWrite (advIndex u.cap u.w inp.length)) [] inp where
  setup := ⟨so.setup.requests, so.setup.configured, so.setup.total, so.setup.m⟩
  released := List.nil_prefix
  fits := hfit
  read := so.r.trans (advIndex_zero hs.read_le).symm
  write := by
    have := hs.dist_add_free
    rw [so.cap, so.w]
    exact hs.toIndex_advIndex hs.write_le (by omega)
  kept := hkept
  stored := hstored

/-- A step that writes only free cells and moves no cursor. -/
theorem conserves_freeCells (hs : s.Inv) (hc : s.configured = true) (so : StorageOnly s u) (hkept : KeepsUsedCells s u) :
    Conserves s u [] [] := by
  have hr := hs.inRange hc
  obtain ⟨hwo, hwl, hro, hrl⟩ := so.spans
  have hm : RingMove s u [] [] :=
    { setup := so.setup
      released := List.nil_prefix
      fits := Nat.zero_le _
      read := so.r.trans (advIndex_zero hr.read_le).symm
      write := so.w.trans (advIndex_zero hr.write_le).symm
      kept := hkept
      stored := nofun }
  exact hm.conserves hs hc (so.inv hs.memory) (hm.writeSpanInRange hr hc hwo hwl (.inl rfl))
    (hm.readSpanInRange hr hc hro hrl (.inl rfl))

/-- SPAN_WR writes one cell of the outstanding write span, an image of a free index (20_memory R61, 10_state R32). -/
theorem conserves_spanWrite {p : Nat} (hs : s.Inv) (hin : s.inWriteSpan p = true) (hp : p < s.total) (b : Byte) :
    Conserves s (s.setByte p b) [] [] := by
  simp only [State.inWriteSpan, Bool.and_eq_true, decide_eq_true_eq] at hin
  obtain ⟨⟨⟨hc, hopen⟩, hlow⟩, hhigh⟩ := hin
  have hr := hs.inRange hc
  obtain ⟨-, hspan, -⟩ := State.inRange_iff.1 hr
  obtain ⟨-, hfit, -⟩ := hspan.2 hopen
  refine conserves_freeCells hs hc (storageOnly_setByte hp) fun a ha => ?_
  have hne : a ≠ p := by
    obtain ⟨hreal, hmirror⟩ := ha (p - s.w) (by omega)
    have := add_eq_advIndex_or (i := s.w) (n := p - s.w) hr.cap_pos
    omega
  rw [State.setByte_byteAt, if_neg hne]

/-! ### PUSH and BULKW -/

theorem storeRun_singleton {b : Byte} (hw : s.w ≤ s.cap - 1) (h : storeMirrored s s.w b = .ok u) :
    storeRun s.w [b] 0 s = .ok u := by
  simp only [storeRun, advIndex_zero hw, h]

/-- The loop of BULKW writes free cells, as far as `w` itself where the buffer is full (41_byte_ops R121). -/
theorem storeRun_keepsUsedCells {data : List Byte} (h : storeRun s.w data 0 s = .ok u) (hlen : data.length ≤ s.free + 1) :
    KeepsUsedCells s u := by
  obtain ⟨-, hframe⟩ := storeRun_frame h
  refine fun a ha => hframe a fun k hk => ?_
  obtain ⟨hreal, hmirror⟩ := ha k (by omega)
  rw [Nat.zero_add]
  exact ⟨hreal, fun hm => hmirror hm.2⟩

theorem conserves_storeRun {data : List Byte} (hs : s.Inv) (hc : s.configured = true) (hidle : s.wsOpen = false)
    (h : storeRun s.w data 0 s = .ok u) (hfit : data.length ≤ s.free) :
    Conserves s (u.setWrite (advIndex u.cap u.w data.length)) [] data := by
  have hr := hs.inRange hc
  have hsum := hr.dist_add_free
  have hcap := hr.cap_pos
  obtain ⟨so, -⟩ := storeRun_frame h
  obtain ⟨hwo, hwl, hro, hrl⟩ := so.spans
  have hbytes := storeRun_bytes h hr.write_le hcap (by omega)
  simp only [Nat.zero_add] at hbytes
  have hm := ringMove_append hr so (storeRun_keepsUsedCells h (by omega)) hfit hbytes
  exact hm.conserves hs hc (so.inv hs.memory) (hm.writeSpanInRange hr hc hwo hwl (.inr hidle))
    (hm.readSpanInRange hr hc hro hrl (.inl rfl))

theorem pushOverflows_iff (hr : s.InRange) : s.pushOverflows = true ↔ s.free = 0 := by
  rw [State.pushOverflows, beq_iff_eq, State.free, freeSpace_eq_zero hr.cap_pos hr.read_le hr.write_le]

theorem conserves_push {v : Byte} (hs : s.Inv) (hc : s.configured = true) (hidle : s.wsOpen = false)
    (h : storeMirrored s s.w v = .ok u) :
    Conserves s (pushAdvance s.pushOverflows u) [] (if 0 < s.free then [v] else []) := by
  have hr := hs.inRange hc
  have hsum := hr.dist_add_free
  obtain ⟨so, -⟩ := storeMirrored_spec h
  have hrun := storeRun_singleton hr.write_le h
  by_cases hfree : 0 < s.free
  · have hfull : s.pushOverflows = false := by
      rw [← Bool.not_eq_true, pushOverflows_iff hr]; omega
    rw [hfull, if_pos hfree, pushAdvance, if_neg (by simp),
      nextIndex_eq_advIndex (by rw [so.w, so.cap]; exact hr.write_le) (by rw [so.cap]; omega)]
    exact (conserves_storeRun hs hc hidle hrun hfree).respond 0 0
  · rw [(pushOverflows_iff hr).2 (by omega), if_neg hfree, pushAdvance, if_pos rfl]
    exact (conserves_freeCells hs hc so (storeRun_keepsUsedCells hrun (by simp))).faultRespond
      (so.setup.configured.trans hc) .overflow 0 0

theorem conserves_bulkw {data : List Byte} {len : Index} (hs : s.Inv) (hc : s.configured = true) (hidle : s.wsOpen = false)
    (hdata : data.length = len.toNat) (h : storeRun s.w (data.take (s.bulkCount len)) 0 s = .ok u) :
    Conserves s (bulkAdvance (s.bulkOverflows len) (s.bulkCount len) u) [] (data.take (s.bulkCount len)) := by
  have hcount : (data.take (s.bulkCount len)).length = s.bulkCount len := by
    rw [List.length_take, hdata, State.bulkCount]; omega
  have hfit : s.bulkCount len ≤ s.free := Nat.min_le_right _ _
  obtain ⟨so, -⟩ := storeRun_frame h
  have hrun := conserves_storeRun hs hc hidle h (by omega)
  rw [hcount] at hrun
  unfold bulkAdvance
  split
  · exact hrun.faultRespond (so.setup.configured.trans hc) _ _ _
  · exact hrun.respond _ _

/-! ### COMMITW -/

/-- The copies of COMMITW write only images of the span: the mirror cells of its head bytes, and the head cells of its bytes in
the mirror region (43_write_span R150, R151). -/
theorem commitCopies_keepsUsedCells {len : Nat} (hr : s.InRange) (hopen : s.wsOpen = true) (hlen : len ≤ s.wsLen.toNat)
    (h : commitCopies len s = .ok u) : KeepsUsedCells s u := by
  obtain ⟨-, hbytes⟩ := commitCopies_spec h
  obtain ⟨-, hspan, -⟩ := State.inRange_iff.1 hr
  obtain ⟨-, hfit, -⟩ := hspan.2 hopen
  have hw := hr.write_le
  have hcap := hr.m_le_cap
  have ebl : s.bl = s.m - 1 := rfl
  intro a ha
  rw [hbytes hr hopen hlen a]
  split_ifs with hmirror hspilled
  · have := (ha (a - s.cap - s.w) (by omega)).2
    rw [advIndex, if_pos (by omega)] at this
    omega
  · have := (ha (a + s.cap - s.w) (by omega)).1
    rw [advIndex, if_neg (by omega)] at this
    omega
  · rfl

/-- After the copies byte `k` of the span stands at `adv(w, k)` and, in the head, at its mirror cell (43_write_span R150). -/
theorem commitCopies_stored {len : Nat} (hr : s.InRange) (hopen : s.wsOpen = true) (hlen : len ≤ s.wsLen.toNat)
    (h : commitCopies len s = .ok u) {k : Nat} (hk : k < len) :
    u.byteAt (advIndex s.cap s.w k) = s.byteAt (s.w + k) ∧
      (advIndex s.cap s.w k ≤ s.bl → u.byteAt (advIndex s.cap s.w k + s.cap) = s.byteAt (s.w + k)) := by
  obtain ⟨-, hbytes⟩ := commitCopies_spec h
  obtain ⟨-, hspan, -⟩ := State.inRange_iff.1 hr
  obtain ⟨-, hfit, -⟩ := hspan.2 hopen
  have hsum := hr.dist_add_free
  rw [hbytes hr hopen hlen, hbytes hr hopen hlen]
  by_cases hreal : s.w + k ≤ s.cap - 1
  · rw [advIndex, if_pos hreal]
    refine ⟨by rw [if_neg (by omega), if_neg (by omega)], fun hhead => ?_⟩
    rw [if_pos (by omega), Nat.add_sub_cancel]
  · rw [advIndex, if_neg hreal, Nat.sub_add_cancel (by omega : s.cap ≤ s.w + k)]
    refine ⟨by rw [if_neg (by omega), if_pos (by omega)], fun _ => ?_⟩
    rw [if_neg (by omega), if_neg (by omega)]

theorem conserves_commitw {len : Nat} (hs : s.Inv) (hc : s.configured = true) (hopen : s.wsOpen = true)
    (hlen : len ≤ s.wsLen.toNat) (h : commitCopies len s = .ok u) :
    Conserves s (commitwResult len u) [] (s.bytesFrom s.w len) := by
  have hr := hs.inRange hc
  obtain ⟨-, hspan, -⟩ := State.inRange_iff.1 hr
  obtain ⟨-, hfit, -⟩ := hspan.2 hopen
  obtain ⟨so, -⟩ := commitCopies_spec h
  obtain ⟨-, -, hro, hrl⟩ := so.spans
  have hlength : (s.bytesFrom s.w len).length = len := by simp [State.bytesFrom]
  have hm := ringMove_append (inp := s.bytesFrom s.w len) hr so (commitCopies_keepsUsedCells hr hopen hlen h) (by omega)
    fun k hk => by
      rw [show (s.bytesFrom s.w len)[k] = s.byteAt (s.w + k) by simp [State.bytesFrom]]
      exact commitCopies_stored hr hopen hlen h (by omega)
  rw [hlength, ← committedEnd_eq] at hm
  have hclosed : RingMove s (u.setWrite (u.committedEnd len)).closeWrite [] (s.bytesFrom s.w len) :=
    ⟨⟨hm.setup.requests, hm.setup.configured, hm.setup.total, hm.setup.m⟩, hm.released, hm.fits, hm.read, hm.write, hm.kept,
      hm.stored⟩
  exact (hclosed.conserves hs hc (so.inv hs.memory) spanInRange_closed
    (hclosed.readSpanInRange hr hc hro hrl (.inl rfl))).respond 0 0

/-! ### INIT -/

/-- INIT makes an empty ring out of none (40_construction R110). -/
theorem conserves_construct {m0 : Index} (hs : s.Inv) (hc : s.configured = false) (hm0 : s.badMirrorSize m0 = false) :
    Conserves s (s.construct m0) [] [] := by
  simp only [State.badMirrorSize, Bool.or_eq_false_iff, beq_eq_false_iff_ne, decide_eq_false_iff_not] at hm0
  obtain ⟨hpos, hhalf⟩ := hm0
  have hne : m0.toNat ≠ 0 := fun h => hpos (BitVec.eq_of_toNat_eq h)
  have hcursors : 1 ≤ (s.construct m0).m ∧ 2 * (s.construct m0).m ≤ s.total :=
    ⟨Nat.one_le_iff_ne_zero.2 hne, Nat.le_of_not_gt hhalf⟩
  have hrange : (s.construct m0).InRange :=
    State.inRange_iff.2 ⟨⟨hcursors.1, hcursors.2, Nat.zero_le _, Nat.zero_le _⟩, spanInRange_closed, spanInRange_closed⟩
  have hdist : (s.construct m0).dist = 0 := rfl
  have hlive : (s.construct m0).liveBytes = [] := by rw [State.liveBytes_of_configured rfl, hdist]; rfl
  refine ⟨⟨⟨nofun, fun _ => hrange⟩, hs.memory, fun _ j hj => absurd hj (by rw [hdist]; omega)⟩, rfl, ?_⟩
  rw [hlive, State.liveBytes, if_neg (by simp [hc])]

end Sys2Proof.Machine
end

section
/-! SUPPORT. From the commands to the step and the run: the delivered stream, then the live bytes, is the bytes live at the
start, then the accepted stream (10_state R37). -/

namespace Sys2Proof.Machine

variable {s t : State}

/-! ### The checks in front of a command's rule -/

/-- `requireConfigured_refuseWhen_next` with the reason: the command is refused exactly when its guard fails. -/
theorem guarded_next {busy : Bool} {body : Host.Outcome State Fault Refusal}
    (h : requireConfigured s (refuseWhen busy s body) = .next t) :
    ((s.configured && !busy) = false ∧ t = refuse .usageError s) ∨
      (s.configured = true ∧ busy = false ∧ body = .next t) := by
  unfold requireConfigured refuseWhen at h
  split_ifs at h with hc hb
  · injection h with h
    exact .inl ⟨by simp [hb], h.symm⟩
  · exact .inr ⟨hc, by simpa using hb, h⟩
  · injection h with h
    exact .inl ⟨by simp [hc], h.symm⟩

/-- The same for the two span conditions of COMMITW and COMMITR: a span is outstanding and the length is within it. -/
theorem spanGuarded_next {isOpen : Bool} {len spanLen : Nat} {body : Host.Outcome State Fault Refusal}
    (h : requireConfigured s (refuseWhen (!isOpen) s (refuseWhen (decide (len > spanLen)) s body)) = .next t) :
    ((s.configured && isOpen && decide (len ≤ spanLen)) = false ∧ t = refuse .usageError s) ∨
      (s.configured = true ∧ isOpen = true ∧ len ≤ spanLen ∧ body = .next t) := by
  rcases guarded_next h with ⟨hguard, ht⟩ | ⟨hc, hopen, hbody⟩
  · rw [Bool.not_not] at hguard
    exact .inl ⟨by rw [hguard, Bool.false_and], ht⟩
  · unfold refuseWhen at hbody
    split_ifs at hbody with hlong
    · injection hbody with hbody
      exact .inl ⟨by simpa using fun _ _ => of_decide_eq_true hlong, hbody.symm⟩
    · exact .inr ⟨hc, by simpa using hopen, by simpa using hlong, hbody⟩

/-! ### The commands that move the ring -/

theorem execPush_conserves {v : Byte} (hs : s.Inv) (h : execPush v s = .next t) :
    Conserves s t [] (s.acceptedBy (.push v)) := by
  rcases guarded_next h with ⟨hguard, rfl⟩ | ⟨hc, hidle, hbody⟩
  · have hnone : s.acceptedBy (.push v) = [] := by simp [State.acceptedBy, hguard]
    rw [hnone]
    exact .refuse hs _
  · have hsome : s.acceptedBy (.push v) = if 0 < s.free then [v] else [] := by simp [State.acceptedBy, hc, hidle]
    split at hbody
    · cases hbody
    · next u hstore =>
      injection hbody with hbody
      rw [hsome, ← hbody]
      exact conserves_push hs hc hidle hstore

theorem execBulkw_conserves {len : Index} {data : List Byte} (hs : s.Inv) (hdata : data.length = len.toNat)
    (h : execBulkw len data s = .next t) : Conserves s t [] (s.acceptedBy (.bulkw len data)) := by
  rcases guarded_next h with ⟨hguard, rfl⟩ | ⟨hc, hidle, hbody⟩
  · have hnone : s.acceptedBy (.bulkw len data) = [] := by simp [State.acceptedBy, hguard]
    rw [hnone]
    exact .refuse hs _
  · have hsome : s.acceptedBy (.bulkw len data) = data.take (s.bulkCount len) := by
      simp [State.acceptedBy, State.bulkCount, hc, hidle]
    split at hbody
    · cases hbody
    · next u hstore =>
      injection hbody with hbody
      rw [hsome, ← hbody]
      exact conserves_bulkw hs hc hidle hdata hstore

theorem execCommitw_conserves {len : Index} (hs : s.Inv) (h : execCommitw len s = .next t) :
    Conserves s t [] (s.acceptedBy (.commitw len)) := by
  rcases spanGuarded_next h with ⟨hguard, rfl⟩ | ⟨hc, hopen, hlen, hbody⟩
  · have hnone : s.acceptedBy (.commitw len) = [] := by simp only [State.acceptedBy, hguard]; rfl
    rw [hnone]
    exact .refuse hs _
  · have hsome : s.acceptedBy (.commitw len) = s.bytesFrom s.w len.toNat := by simp [State.acceptedBy, hc, hopen, hlen]
    split at hbody
    · cases hbody
    · next u hcopies =>
      injection hbody with hbody
      rw [hsome, ← hbody]
      exact conserves_commitw hs hc hopen hlen hcopies

theorem execPop_conserves (hs : s.Inv) (h : execPop s = .next t) : Conserves s t (s.deliveredBy .pop) [] := by
  rcases guarded_next h with ⟨hguard, rfl⟩ | ⟨hc, hidle, hbody⟩
  · have hnone : s.deliveredBy .pop = [] := by simp [State.deliveredBy, hguard]
    rw [hnone]
    exact .refuse hs _
  · split at hbody
    · cases hbody
    · next b hread =>
      obtain ⟨-, rfl⟩ := memRead_eq_ok.1 hread
      injection hbody with hbody
      rw [← hbody]
      have hempty : s.isEmpty = true ↔ s.r = s.w := by simp [State.isEmpty]
      by_cases heq : s.r = s.w
      · have hnone : s.deliveredBy .pop = [] := by simp [State.deliveredBy, heq]
        rw [hnone, popResult, if_pos (hempty.2 heq)]
        exact (Conserves.refl hs).faultRespond hc _ _ _
      · have hsome : s.deliveredBy .pop = [s.byteAt s.r] := by simp [State.deliveredBy, hc, hidle, heq]
        rw [hsome, popResult, if_neg (mt hempty.1 heq)]
        exact (conserves_pop hs hc hidle heq).respond _ _

theorem execCommitr_conserves {len : Index} (hs : s.Inv) (h : execCommitr len s = .next t) :
    Conserves s t (s.deliveredBy (.commitr len)) [] := by
  rcases spanGuarded_next h with ⟨hguard, rfl⟩ | ⟨hc, hopen, hlen, hbody⟩
  · have hnone : s.deliveredBy (.commitr len) = [] := by simp only [State.deliveredBy, hguard]; rfl
    rw [hnone]
    exact .refuse hs _
  · have hsome : s.deliveredBy (.commitr len) = s.bytesFrom s.r len.toNat := by
      simp [State.deliveredBy, hc, hopen, hlen]
    injection hbody with hbody
    rw [hsome, ← hbody]
    exact (conserves_commitr hs hc hopen hlen).respond _ _

/-! ### The commands that do not -/

theorem execInit_conserves {m0 : Index} (hs : s.Inv) (h : execInit m0 s = .next t) : Conserves s t [] [] := by
  rcases execInit_next h with rfl | rfl | ⟨hc, hm0, rfl⟩
  · exact .refuse hs _
  · exact .refuse hs _
  · exact (conserves_construct hs hc hm0).respond _ _

theorem execAllocw_conserves {maxLen : Index} (hs : s.Inv) (h : execAllocw maxLen s = .next t) : Conserves s t [] [] := by
  rcases execAllocw_next h with rfl | ⟨hc, -, rfl⟩
  · exact .refuse hs _
  · unfold allocwResult
    split
    · exact (Conserves.refl hs).faultRespond hc _ _ _
    · next hg => exact (conserves_openWrite hs hc (by simpa [State.allocOverflows] using hg)).respond _ _

theorem execAllocr_conserves {maxLen : Index} (hs : s.Inv) (h : execAllocr maxLen s = .next t) : Conserves s t [] [] := by
  rcases execAllocr_next h with rfl | ⟨hc, -, rfl⟩
  · exact .refuse hs _
  · have hgrant := conserves_grantRead hs hc maxLen
    have hct : (s.grantRead (s.readGrant maxLen)).configured = true := by
      unfold State.grantRead; split <;> exact hc
    unfold allocrResult
    dsimp only
    split
    · exact hgrant.faultRespond hct _ _ _
    · exact hgrant.respond _ _

/-- Every command conserves the byte stream (10_state R37). -/
theorem exec_conserves {i : Instr} (hs : s.Inv) (hwf : i.wellFormed = true) (h : exec i s = .next t) :
    Conserves s t (s.deliveredBy i) (s.acceptedBy i) := by
  cases i with
  | init m0 => exact execInit_conserves hs h
  | push v => exact execPush_conserves hs h
  | pop => exact execPop_conserves hs h
  | bulkw len data => exact execBulkw_conserves hs (beq_iff_eq.1 hwf) h
  | allocw maxLen => exact execAllocw_conserves hs h
  | commitw len => exact execCommitw_conserves hs h
  | allocr maxLen => exact execAllocr_conserves hs h
  | commitr len => exact execCommitr_conserves hs h
  | length =>
    rcases execLength_next h with rfl | ⟨-, rfl⟩
    · exact .refuse hs _
    · exact (Conserves.refl hs).respond _ _
  | hasdata =>
    rcases execHasdata_next h with rfl | ⟨-, rfl⟩
    · exact .refuse hs _
    · exact (Conserves.refl hs).respond _ _
  | geterr =>
    rcases execGeterr_next h with rfl | ⟨-, rfl⟩
    · exact .refuse hs _
    · exact (Conserves.refl hs).respond _ _
  | clrerr =>
    rcases execClrerr_next h with rfl | ⟨hc, rfl⟩
    · exact .refuse hs _
    · exact ((Conserves.refl hs).raiseFault hc _).respond _ _

/-! ### The span port -/

theorem spanWrite_conserves {p : Index} {b : Byte} (hs : s.Inv) (h : spanWrite p b s = .next t) : Conserves s t [] [] := by
  rcases spanWrite_next h with ⟨hin, hp, rfl⟩ | ⟨-, rfl⟩
  · exact (conserves_spanWrite hs hin hp b).reply _
  · exact (Conserves.refl hs).reply _

theorem spanRead_conserves {p : Index} (hs : s.Inv) (h : spanRead p s = .next t) : Conserves s t [] [] := by
  rcases spanRead_next h with ⟨-, -, rfl⟩ | ⟨-, rfl⟩
  · exact (Conserves.refl hs).reply _
  · exact (Conserves.refl hs).reply _

/-! ### What a decoded command looks like -/

theorem withoutPayload_eq_ok {payload : List Byte} {i j : Instr} (h : withoutPayload payload i = .ok j) : j = i := by
  unfold withoutPayload at h
  split at h <;> cases h
  rfl

theorem withoutOperand_eq_ok {arg : Index} {payload : List Byte} {i j : Instr}
    (h : withoutOperand arg payload i = .ok j) : j = i := by
  unfold withoutOperand at h
  split at h
  · exact withoutPayload_eq_ok h
  · cases h

/-- A BULKW that decodes has as many payload bytes as it says (30_encoding R84 step 4). -/
theorem decode_wellFormed {word : CommandWord} {payload : List Byte} {i : Instr} (h : decode word payload = .ok i) :
    i.wellFormed = true := by
  unfold decode at h
  split at h
  · unfold decodeOpcode at h
    split at h
    case h_2 =>
      split at h
      · rw [withoutPayload_eq_ok h]; rfl
      · cases h
    case h_4 =>
      split at h
      · next hlen => cases h; exact beq_iff_eq.2 hlen
      · cases h
    case h_13 => cases h
    case h_3 | h_9 | h_10 | h_11 | h_12 => rw [withoutOperand_eq_ok h]; rfl
    all_goals rw [withoutPayload_eq_ok h]; rfl
  · cases h

/-! ### The step -/

theorem State.acceptedNow_of_nextCommand {i : Instr} (h : s.nextCommand = some i) : s.acceptedNow = s.acceptedBy i := by
  rw [State.acceptedNow, h]

theorem State.deliveredNow_of_nextCommand {i : Instr} (h : s.nextCommand = some i) : s.deliveredNow = s.deliveredBy i := by
  rw [State.deliveredNow, h]

theorem State.streamsNow_of_no_command (h : s.nextCommand = none) : s.deliveredNow = [] ∧ s.acceptedNow = [] := by
  rw [State.deliveredNow, State.acceptedNow, h]
  exact ⟨rfl, rfl⟩

/-- A step that is no reset conserves the byte stream, keeps the invariant and takes one chosen step (10_state R37). -/
theorem step_conserves (hs : s.Inv) (hreset : ∀ rest, s.requests ≠ .reset :: rest) (h : step s = .next t) :
    Conserves { s with requests := s.requests.tail } t s.deliveredNow s.acceptedNow := by
  rcases step_next h with ⟨hq, rfl⟩ | ⟨word, payload, rest, i, hq, hdec, hexec⟩ | ⟨word, payload, rest, e, hq, hdec, rfl⟩ |
    ⟨p, b, rest, hq, hwrite⟩ | ⟨p, rest, hq, hread⟩ | ⟨rest, hq, -⟩
  · obtain ⟨hout, hinp⟩ := State.streamsNow_of_no_command (s := t) (by simp [State.nextCommand, hq])
    rw [hout, hinp]
    exact ⟨hs, by simp [hq], (List.append_nil _).symm⟩
  · have hnext : s.nextCommand = some i := by simp [State.nextCommand, hq, hdec, Except.toOption]
    rw [State.deliveredNow_of_nextCommand hnext, State.acceptedNow_of_nextCommand hnext, hq]
    exact exec_conserves (s := { s with requests := rest }) hs (decode_wellFormed hdec) hexec
  · obtain ⟨hout, hinp⟩ := State.streamsNow_of_no_command (s := s) (by simp [State.nextCommand, hq, hdec, Except.toOption])
    rw [hout, hinp, hq]
    exact .refuse (s := { s with requests := rest }) hs _
  · obtain ⟨hout, hinp⟩ := State.streamsNow_of_no_command (s := s) (by simp [State.nextCommand, hq])
    rw [hout, hinp, hq]
    exact spanWrite_conserves (s := { s with requests := rest }) hs hwrite
  · obtain ⟨hout, hinp⟩ := State.streamsNow_of_no_command (s := s) (by simp [State.nextCommand, hq])
    rw [hout, hinp, hq]
    exact spanRead_conserves (s := { s with requests := rest }) hs hread
  · exact absurd hq (hreset rest)

/-! ### The run -/

/-- A run of `n + 1` steps is a first step, then a run of `n`. -/
theorem run_succ_next {n : Nat} (h : Sys2Proof.core.run (n + 1) s = .next t) :
    ∃ u, step s = .next u ∧ Sys2Proof.core.run n u = .next t := by
  simp only [Host.Core.run] at h
  split at h
  · next u hstep => exact ⟨u, hstep, h⟩
  · cases h
  · cases h

theorem acceptedStream_succ {n : Nat} {u : State} (h : step s = .next u) :
    acceptedStream (n + 1) s = s.acceptedNow ++ acceptedStream n u := by
  rw [acceptedStream, h]

theorem deliveredStream_succ {n : Nat} {u : State} (h : step s = .next u) :
    deliveredStream (n + 1) s = s.deliveredNow ++ deliveredStream n u := by
  rw [deliveredStream, h]

/-- Settles O46, by induction on the number of steps: each step hands on the invariant and an environment without reset, and
its own conservation is put in front of the rest of the run's. -/
theorem runConservesTheByteStream : Obligations.RunConservesTheByteStream := by
  intro n
  induction n with
  | zero =>
    intro s t _ _ hrun
    injection hrun with hrun
    rw [hrun]
    exact (List.append_nil _).symm
  | succ n ih =>
    intro s t hs hreset hrun
    obtain ⟨u, hstep, hrun⟩ := run_succ_next hrun
    obtain ⟨hinv, hrequests, hstream⟩ := step_conserves hs (fun rest hq => hreset (hq ▸ List.mem_cons_self)) hstep
    have hrest : u.NoResetChosen := by
      rw [State.NoResetChosen, hrequests]
      exact fun hmem => hreset (List.mem_of_mem_tail hmem)
    calc deliveredStream (n + 1) s ++ t.liveBytes
        = s.deliveredNow ++ (deliveredStream n u ++ t.liveBytes) := by
          rw [deliveredStream_succ hstep, List.append_assoc]
      _ = s.deliveredNow ++ u.liveBytes ++ acceptedStream n u := by rw [ih u t hinv hrest hrun, List.append_assoc]
      _ = s.liveBytes ++ s.acceptedNow ++ acceptedStream n u := congrArg (· ++ acceptedStream n u) hstream
      _ = s.liveBytes ++ acceptedStream (n + 1) s := by rw [acceptedStream_succ hstep, List.append_assoc]

end Sys2Proof.Machine
end

section
/-! SUPPORT. The span port: when a single-byte request is accepted, what it answers, and that the two outstanding spans never
meet (20_memory R60 to R63). -/

namespace Sys2Proof.Machine

variable {s : State} {p : Index} {b : Byte} {rest : List Request}

/-! ### The windows of the two spans -/

theorem State.inReadSpan_iff {i : Nat} : s.inReadSpan i = true ↔
    s.configured = true ∧ s.rsOpen = true ∧ s.r ≤ i ∧ i < s.r + s.rsLen.toNat := by
  simp [State.inReadSpan, and_assoc]

theorem State.inWriteSpan_iff {i : Nat} : s.inWriteSpan i = true ↔
    s.configured = true ∧ s.wsOpen = true ∧ s.w ≤ i ∧ i < s.w + s.wsLen.toNat := by
  simp [State.inWriteSpan, and_assoc]

/-- A span in range ends before the storage does (10_state R31). -/
theorem SpanInRange.lt_total {cap m total base avail i : Nat} {len : Index}
    (h : SpanInRange cap m total true len base avail) (hi : i < base + len.toNat) : i < total := by
  obtain ⟨-, -, hend, -⟩ := h.2 rfl
  omega

theorem State.InRange.lt_total_of_inReadSpan (h : s.InRange) {i : Nat} (hin : s.inReadSpan i = true) : i < s.total := by
  obtain ⟨-, hopen, -, hi⟩ := State.inReadSpan_iff.1 hin
  obtain ⟨-, -, hspan⟩ := State.inRange_iff.1 h
  rw [State.ReadSpanInRange, hopen] at hspan
  exact hspan.lt_total hi

theorem State.InRange.lt_total_of_inWriteSpan (h : s.InRange) {i : Nat} (hin : s.inWriteSpan i = true) : i < s.total := by
  obtain ⟨-, hopen, -, hi⟩ := State.inWriteSpan_iff.1 hin
  obtain ⟨-, hspan, -⟩ := State.inRange_iff.1 h
  rw [State.WriteSpanInRange, hopen] at hspan
  exact hspan.lt_total hi

/-- An address of the read span is the index of a live byte, or the mirror cell of a live head byte (10_state R31, R38). -/
theorem State.InRange.inReadSpan_live (h : s.InRange) {i : Nat} (hin : s.inReadSpan i = true) :
    i - s.r < s.dist ∧ (i = advIndex s.cap s.r (i - s.r) ∨
      i = advIndex s.cap s.r (i - s.r) + s.cap ∧ advIndex s.cap s.r (i - s.r) ≤ s.bl) := by
  obtain ⟨-, hopen, hlow, hhigh⟩ := State.inReadSpan_iff.1 hin
  obtain ⟨-, -, hspan⟩ := State.inRange_iff.1 h
  obtain ⟨-, hdist, -, hcut⟩ := hspan.2 hopen
  refine ⟨by omega, ?_⟩
  rcases add_eq_advIndex_or (i := s.r) (n := i - s.r) h.cap_pos with hreal | hmirror
  · exact .inl (by omega)
  · have hr := h.read_le
    have hbl : s.bl = s.m - 1 := rfl
    exact .inr ⟨by omega, by omega⟩

/-- An address of the write span is a free index or the mirror cell of one (10_state R32). -/
theorem State.InRange.inWriteSpan_free (h : s.InRange) {i : Nat} (hin : s.inWriteSpan i = true) :
    ∃ k ≤ s.free, i = advIndex s.cap s.w k ∨ i = advIndex s.cap s.w k + s.cap := by
  obtain ⟨-, hopen, hlow, hhigh⟩ := State.inWriteSpan_iff.1 hin
  obtain ⟨-, hspan, -⟩ := State.inRange_iff.1 h
  obtain ⟨-, hfit, -⟩ := hspan.2 hopen
  refine ⟨i - s.w, by omega, ?_⟩
  have := add_eq_advIndex_or (i := s.w) (n := i - s.w) h.cap_pos
  omega

/-- The outstanding spans do not meet, for no index is both live and free (20_memory R63). -/
theorem State.InRange.not_inReadSpan_of_inWriteSpan (h : s.InRange) {i : Nat} (hin : s.inWriteSpan i = true) :
    s.inReadSpan i = false := by
  rw [← Bool.not_eq_true]
  intro hread
  obtain ⟨hdist, hindex⟩ := h.inReadSpan_live hread
  obtain ⟨k, hk, hfree⟩ := h.inWriteSpan_free hin
  have hne := h.live_ne_advIndex_write ⟨_, hdist, rfl⟩ hk
  have hlive_lt := h.live_lt ⟨_, hdist, rfl⟩
  have hfree_lt := h.advIndex_write_lt hk
  omega

/-- A byte of the read span is an unread byte, also where it lies in the mirror region (10_state R33(a), R38). -/
theorem State.InRange.byteAt_of_inReadSpan (h : s.InRange) (hlive : s.LiveMirrored) {i : Nat} (hin : s.inReadSpan i = true) :
    s.byteAt i = s.byteAt (advIndex s.cap s.r (i - s.r)) := by
  obtain ⟨hc, -⟩ := State.inReadSpan_iff.1 hin
  obtain ⟨hdist, hreal | ⟨hmirror, hhead⟩⟩ := h.inReadSpan_live hin
  · rw [← hreal]
  · rw [← hlive hc _ hdist hhead, ← hmirror]

/-! ### What the port answers -/

theorem step_of_spanRd (hq : s.requests = .spanRd p :: rest) : step s = spanRead p { s with requests := rest } := by
  simp only [step, serveNext, hq, serve]

theorem step_of_spanWr (hq : s.requests = .spanWr p b :: rest) : step s = spanWrite p b { s with requests := rest } := by
  simp only [step, serveNext, hq, serve]

theorem spanRead_of_inReadSpan (hin : s.inReadSpan p.toNat = true) (hp : p.toNat < s.total) :
    spanRead p s = .next (s.reply (.data (s.byteAt p.toNat))) := by
  rw [spanRead, if_pos hin, memRead_eq_ok.2 ⟨hp, rfl⟩]

theorem spanRead_of_not_inReadSpan (hin : ¬ s.inReadSpan p.toNat = true) : spanRead p s = .next (s.reply .rejected) :=
  if_neg hin

theorem spanWrite_of_inWriteSpan (hin : s.inWriteSpan p.toNat = true) (hp : p.toNat < s.total) :
    spanWrite p b s = .next ((s.setByte p.toNat b).reply .written) := by
  rw [spanWrite, if_pos hin, memWrite_eq_ok.2 ⟨hp, rfl⟩]

theorem spanWrite_of_not_inWriteSpan (hin : ¬ s.inWriteSpan p.toNat = true) :
    spanWrite p b s = .next (s.reply .rejected) :=
  if_neg hin

/-! ### The statements -/

/-- Settles O31: a request in the window finds its byte in the storage, since the window ends before it does; that byte is a
live one or the mirror of one. -/
theorem spanReadIsGuarded : Obligations.SpanReadIsGuarded := by
  rintro s p rest hq ⟨-, hrange⟩
  rw [step_of_spanRd hq, ← State.inReadSpan_iff]
  refine ⟨fun hin => ?_, fun hout => spanRead_of_not_inReadSpan hout⟩
  obtain ⟨hc, -⟩ := State.inReadSpan_iff.1 hin
  have hr := hrange hc
  exact ⟨spanRead_of_inReadSpan hin (hr.lt_total_of_inReadSpan hin),
    fun hlive => ⟨(hr.inReadSpan_live hin).1, hr.byteAt_of_inReadSpan hlive hin⟩⟩

/-- Settles O32: a request in the window is one `setByte`, and the window holds free cells only, which no read span reaches. -/
theorem spanWriteIsGuarded : Obligations.SpanWriteIsGuarded := by
  rintro s p b rest hq ⟨-, hrange⟩
  rw [step_of_spanWr hq, ← State.inWriteSpan_iff]
  refine ⟨fun hin => ?_, fun hout => spanWrite_of_not_inWriteSpan hout⟩
  obtain ⟨hc, -⟩ := State.inWriteSpan_iff.1 hin
  have hr := hrange hc
  exact ⟨(s.setByte p.toNat b).storage, fun _ => State.setByte_byteAt,
    spanWrite_of_inWriteSpan hin (hr.lt_total_of_inWriteSpan hin), hr.not_inReadSpan_of_inWriteSpan hin⟩

end Sys2Proof.Machine
end

section
/-! SUPPORT. The decoder against the tables of 30_encoding: a transaction decodes to a command exactly when its fields are the
command's own, which is what the mask and match columns of R86 say, and to none exactly for the encodings of R87. -/

namespace Sys2Proof

variable {word : CommandWord} {opc : BitVec 4} {arg : Index} {payload : List Byte} {i j : Instr}

/-! ### When each step of the decoder answers and when it refuses (30_encoding R84)

Each step is a guard: go on if the condition holds, else refuse. -/

section Guard

variable {c : Prop} [Decidable c] {next : Except DecodeError Instr} {refusal : DecodeError}

theorem guard_eq_ok_iff : (if c then next else .error refusal) = .ok i ↔ c ∧ next = .ok i := by
  split <;> simp [*]

theorem guard_fails_iff : (∃ e, (if c then next else .error refusal) = .error e) ↔ ¬ c ∨ ∃ e, next = .error e := by
  split <;> simp [*]

end Guard

theorem ok_does_not_fail : ¬ ∃ e, (.ok i : Except DecodeError Instr) = .error e := nofun

theorem withoutPayload_eq_ok_iff : withoutPayload payload i = .ok j ↔ payload = [] ∧ i = j := by
  rw [withoutPayload, guard_eq_ok_iff, Except.ok.injEq]

theorem withoutPayload_fails_iff : (∃ e, withoutPayload payload i = .error e) ↔ payload ≠ [] :=
  guard_fails_iff.trans (or_iff_left ok_does_not_fail)

theorem withoutOperand_eq_ok_iff : withoutOperand arg payload i = .ok j ↔ arg = 0 ∧ payload = [] ∧ i = j := by
  rw [withoutOperand, guard_eq_ok_iff, withoutPayload_eq_ok_iff]

theorem withoutOperand_fails_iff : (∃ e, withoutOperand arg payload i = .error e) ↔ arg ≠ 0 ∨ payload ≠ [] :=
  guard_fails_iff.trans (or_congr_right withoutPayload_fails_iff)

/-- What the opcode map answers has the opcode, the operand and the payload that it was asked for (30_encoding R86). -/
theorem fields_of_decodeOpcode (h : decodeOpcode opc arg payload = .ok i) :
    i.opcode = opc ∧ i.argument = arg ∧ i.payload = payload ∧ i.wellFormed = true := by
  unfold decodeOpcode at h
  split at h
  case h_2 hopc =>
    obtain ⟨hhigh, h⟩ := guard_eq_ok_iff.1 h
    obtain ⟨rfl, rfl⟩ := withoutPayload_eq_ok_iff.1 h
    exact ⟨BitVec.eq_of_toNat_eq hopc.symm, setWidth_argLow arg hhigh, rfl, rfl⟩
  case h_4 hopc =>
    obtain ⟨hlen, h⟩ := guard_eq_ok_iff.1 h
    cases h
    exact ⟨BitVec.eq_of_toNat_eq hopc.symm, rfl, rfl, beq_iff_eq.2 hlen⟩
  case h_13 => cases h
  case h_3 hopc | h_9 hopc | h_10 hopc | h_11 hopc | h_12 hopc =>
    obtain ⟨rfl, rfl, rfl⟩ := withoutOperand_eq_ok_iff.1 h
    exact ⟨BitVec.eq_of_toNat_eq hopc.symm, rfl, rfl, rfl⟩
  case h_1 hopc | h_5 hopc | h_6 hopc | h_7 hopc | h_8 hopc =>
    obtain ⟨rfl, rfl⟩ := withoutPayload_eq_ok_iff.1 h
    exact ⟨BitVec.eq_of_toNat_eq hopc.symm, rfl, rfl, rfl⟩

/-- The opcode map finds every command under its own opcode, operand and payload (30_encoding R86). -/
theorem decodeOpcode_fields (hwf : i.wellFormed = true) : decodeOpcode i.opcode i.argument i.payload = .ok i := by
  cases i with
  | push value =>
    change (if argHigh (value.setWidth 16) = 0 then withoutPayload [] (.push (argLow (value.setWidth 16))) else _) = _
    rw [argHigh_setWidth, argLow_setWidth]
    rfl
  | bulkw len data => exact if_pos (beq_iff_eq.1 hwf)
  | _ => rfl

theorem decodeOpcode_eq_ok_iff : decodeOpcode opc arg payload = .ok i ↔
    i.opcode = opc ∧ i.argument = arg ∧ i.payload = payload ∧ i.wellFormed = true := by
  refine ⟨fields_of_decodeOpcode, ?_⟩
  rintro ⟨rfl, rfl, rfl, hwf⟩
  exact decodeOpcode_fields hwf

theorem decode_eq_ok_iff : decode word payload = .ok i ↔ commandRsv word = 0 ∧
    i.opcode = commandOpc word ∧ i.argument = commandArg word ∧ i.payload = payload ∧ i.wellFormed = true := by
  rw [← decodeOpcode_eq_ok_iff, decode, guard_eq_ok_iff]

/-- Steps (2) to (4) refuse the rows of 30_encoding R87, one group of opcodes after the other. -/
theorem decodeOpcode_fails_iff : (∃ e, decodeOpcode opc arg payload = .error e) ↔
    opc.toNat = 0x0 ∨ opc.toNat = 0xD ∨ opc.toNat = 0xE ∨ opc.toNat = 0xF ∨
      ((opc.toNat = 0x3 ∨ opc.toNat = 0x9 ∨ opc.toNat = 0xA ∨ opc.toNat = 0xB ∨ opc.toNat = 0xC) ∧ arg ≠ 0) ∨
      (opc.toNat = 0x2 ∧ argHigh arg ≠ 0) ∨
      (opc.toNat = 0x4 ∧ payload.length ≠ arg.toNat) ∨ (opc.toNat ≠ 0x4 ∧ payload ≠ []) := by
  unfold decodeOpcode
  split
  case h_2 hopc => simp [hopc, guard_fails_iff, withoutPayload_fails_iff]
  case h_4 hopc => simp [hopc, guard_fails_iff]
  case h_13 =>
    have hunused : opc.toNat = 0x0 ∨ opc.toNat = 0xD ∨ opc.toNat = 0xE ∨ opc.toNat = 0xF := by
      have hlt := opc.isLt
      simp only [imp_false] at *
      omega
    rcases hunused with hopc | hopc | hopc | hopc <;> simp [hopc]
  case h_3 hopc | h_9 hopc | h_10 hopc | h_11 hopc | h_12 hopc => simp [hopc, withoutOperand_fails_iff]
  case h_1 hopc | h_5 hopc | h_6 hopc | h_7 hopc | h_8 hopc => simp [hopc, withoutPayload_fails_iff]

theorem decode_fails_iff : (∃ e, decode word payload = .error e) ↔
    commandRsv word ≠ 0 ∨ ∃ e, decodeOpcode (commandOpc word) (commandArg word) payload = .error e :=
  guard_fails_iff

/-- Decoding is total (30_encoding R84): what is no command is refused. -/
theorem decode_fails_of_no_command (h : ∀ i, decode word payload ≠ .ok i) : ∃ e, decode word payload = .error e := by
  cases hdec : decode word payload with
  | error e => exact ⟨e, rfl⟩
  | ok i => exact absurd hdec (h i)

/-! ### The mask and match columns (30_encoding R86) -/

theorem eq_commandWord_iff :
    word = commandWord opc arg ↔ commandRsv word = 0 ∧ opc = commandOpc word ∧ arg = commandArg word := by
  constructor
  · rintro rfl
    simp
  · rintro ⟨hrsv, rfl, rfl⟩
    exact (commandWord_fields word hrsv).symm

theorem Instr.matchBits_eq_commandWord (i : Instr) : i.matchBits = commandWord i.opcode 0 := by
  cases i <;> simp only [matchBits, opcode] <;> decide

/-- Every row fixes the opcode and the reserved bits. -/
theorem Instr.mask_and_operandMask (i : Instr) : i.mask &&& 0xFFFF0000#32 = 0xFFFF0000#32 := by
  cases i <;> simp only [mask] <;> decide

/-- The word of every command has the bits that the command's row fixes. -/
theorem encode_and_mask (i : Instr) : Laws.EncodedWordMatchesItsRow.Statement i := by
  cases i with
  | init mirrorSize => exact Laws.EncodedWordMatchesItsRow.init mirrorSize
  | push value => exact Laws.EncodedWordMatchesItsRow.push value
  | pop => exact Laws.EncodedWordMatchesItsRow.pop
  | bulkw len data => exact Laws.EncodedWordMatchesItsRow.bulkw len data
  | allocw maxLen => exact Laws.EncodedWordMatchesItsRow.allocw maxLen
  | commitw len => exact Laws.EncodedWordMatchesItsRow.commitw len
  | allocr maxLen => exact Laws.EncodedWordMatchesItsRow.allocr maxLen
  | commitr len => exact Laws.EncodedWordMatchesItsRow.commitr len
  | length => exact Laws.EncodedWordMatchesItsRow.length
  | hasdata => exact Laws.EncodedWordMatchesItsRow.hasdata
  | geterr => exact Laws.EncodedWordMatchesItsRow.geterr
  | clrerr => exact Laws.EncodedWordMatchesItsRow.clrerr

/-- A word is fixed by its upper half, where the opcode and the reserved bits are, and its ARG. -/
theorem eq_commandWord_of_and_operandMask (h : word &&& 0xFFFF0000#32 = commandWord opc 0) :
    word = commandWord opc (commandArg word) := by
  apply BitVec.eq_of_getLsbD_eq
  intro k hk
  have hbit := congrArg (BitVec.getLsbD · k) h
  simp only [BitVec.getLsbD_and, operandMask_bit k hk] at hbit
  by_cases hlow : k < 16
  · have hbelow : ¬ 28 ≤ k := by omega
    simp [commandWord, commandArg, hlow, hk, hbelow]
  · simpa [commandWord, commandArg, hlow, hk, not_lt.1 hlow] using hbit

/-- A word that matches a row is the word of the row's opcode, with whatever operand it carries. -/
theorem eq_commandWord_of_and_mask (h : word &&& i.mask = i.matchBits) : word = commandWord i.opcode (commandArg word) := by
  apply eq_commandWord_of_and_operandMask
  calc word &&& 0xFFFF0000#32 = (word &&& i.mask) &&& 0xFFFF0000#32 := by
        rw [BitVec.and_assoc, Instr.mask_and_operandMask]
    _ = commandWord i.opcode 0 &&& 0xFFFF0000#32 := by rw [h, Instr.matchBits_eq_commandWord]
    _ = commandWord i.opcode 0 := commandWord_and_operandMask _ _

theorem opcode_of_and_mask (h : word &&& i.mask = i.matchBits) : i.opcode = commandOpc word := by
  obtain ⟨-, hopc, -⟩ := eq_commandWord_iff.1 (eq_commandWord_of_and_mask h)
  exact hopc

/-- A word in a command's row that carries the command's operand is the command's word, and conversely. -/
theorem and_mask_and_argument_iff : (word &&& i.mask = i.matchBits ∧ i.argument = commandArg word) ↔
    word = commandWord i.opcode i.argument := by
  constructor
  · rintro ⟨hrow, harg⟩
    rw [harg]
    exact eq_commandWord_of_and_mask hrow
  · rintro rfl
    exact ⟨encode_and_mask i, (commandArg_commandWord _ _).symm⟩

namespace Machine

/-- What decodes to no command is answered with ILLEGAL_CMD and leaves the state as it is (60_exceptions R203). -/
theorem runTransaction_refuses (h : ∃ e, decode word payload = .error e) (s : State) :
    s.RefusedWith .illegalCmd (runTransaction word payload s) := by
  obtain ⟨e, hdec⟩ := h
  rw [State.RefusedWith, runTransaction, hdec]
  rfl

/-! ### The statements -/

/-- Settles O3: by the decoder and by the row alike, the word is the one of the command's opcode and operand. -/
theorem maskAndMatchDecide : Obligations.MaskAndMatchDecide := by
  refine ⟨fun word payload i => ?_, fun word i j hi hj => ?_, fun word payload h => ?_⟩
  · calc decode word payload = .ok i
      _ ↔ word = commandWord i.opcode i.argument ∧ i.payload = payload ∧ i.wellFormed = true := by
        rw [decode_eq_ok_iff, eq_commandWord_iff, and_assoc, and_assoc]
      _ ↔ word &&& i.mask = i.matchBits ∧ i.argument = commandArg word ∧ i.payload = payload ∧ i.wellFormed = true := by
        rw [← and_mask_and_argument_iff, and_assoc]
  · rw [opcode_of_and_mask hi, opcode_of_and_mask hj]
  · exact runTransaction_refuses (decode_fails_of_no_command h)

/-- Settles O4: the list of 30_encoding R87 is what `decode` refuses, step by step, and every refusal is answered alike. -/
theorem illegalTransactionsAreExactlyTheseAndRefused : Obligations.IllegalTransactionsAreExactlyTheseAndRefused := by
  intro word payload opc arg illegal
  have hillegal : (∃ e, decode word payload = .error e) ↔ illegal :=
    decode_fails_iff.trans (or_congr_right decodeOpcode_fails_iff)
  exact ⟨hillegal, fun h => runTransaction_refuses (hillegal.2 h)⟩

end Machine

end Sys2Proof
end

section
/-! SUPPORT. The transaction of a command as its row of 30_encoding R86 with the operand set, and INIT case by case
(40_construction R110 to R112). -/

namespace Sys2Proof

/-! ### The word of a command -/

theorem commandWord_eq_or (opc : BitVec 4) (arg : Index) : commandWord opc arg = commandWord opc 0 ||| arg.setWidth 32 := by
  have hzero : commandWord opc 0 = opc.setWidth 32 <<< 28 := BitVec.or_zero
  rw [hzero, commandWord]

/-- The word of a command is the match column of its row with the operand in the bits below (30_encoding R86). -/
theorem encode_eq_matchBits_or (i : Instr) : encode i = (i.matchBits ||| i.argument.setWidth 32, i.payload) := by
  rw [encode, commandWord_eq_or, Instr.matchBits_eq_commandWord]

namespace Machine

variable {m0 : Index} {s : State}

/-! ### The operand and the answer of INIT -/

theorem State.badMirrorSize_iff : s.badMirrorSize m0 = true ↔ m0.toNat = 0 ∨ 2 * m0.toNat > s.total := by
  simp [State.badMirrorSize, BitVec.toNat_eq]

/-- A response word with every field 0: STATUS OK, no fault, `err` None (30_encoding R90, R91). -/
theorem packResponse_ok_none_zero : packResponse .ok .none .none 0 0 = 0 := by decide

/-! ### INIT, one equation for each branch of its checks (60_exceptions R207) -/

theorem execInit_of_configured (hc : s.configured = true) : execInit m0 s = .next (refuse .usageError s) := by
  rw [execInit, initResult, if_pos hc]

theorem execInit_of_badMirrorSize (hc : s.configured = false) (hbad : s.badMirrorSize m0 = true) :
    execInit m0 s = .next (refuse .configError s) := by
  rw [execInit, initResult, if_neg (Bool.eq_false_iff.1 hc), if_pos hbad]

theorem execInit_of_goodMirrorSize (hc : s.configured = false) (hgood : ¬ s.badMirrorSize m0 = true) :
    execInit m0 s = .next ((s.construct m0).emit 0) := by
  have hrespond : respond (s.construct m0) 0 0 = (s.construct m0).emit 0 :=
    congrArg (s.construct m0).emit packResponse_ok_none_zero
  rw [execInit, initResult, if_neg (Bool.eq_false_iff.1 hc), if_neg hgood, hrespond]

/-! ### The statement -/

/-- Settles O16: the lifecycle and the operand choose the branch of INIT, and the one that constructs writes the registers
of 40_construction R110 and answers with the word 0. -/
theorem initConstructsOrIsRefused : Obligations.InitConstructsOrIsRefused := by
  intro m0 s
  refine ⟨encode_eq_matchBits_or (.init m0), fun hc => execInit_of_configured hc, fun hc hbad => ?_, fun hc hpos hfits => ?_⟩
  · exact execInit_of_badMirrorSize hc (State.badMirrorSize_iff.2 hbad)
  · have hgood : ¬ s.badMirrorSize m0 = true := by rw [State.badMirrorSize_iff]; omega
    exact execInit_of_goodMirrorSize hc hgood

end Machine

end Sys2Proof
end

section
/-! SUPPORT. PUSH and POP branch by branch (41_byte_ops R121, R126): the refusal in front, then the one storage access, which
is inside the storage of a block in range, then the advance or the fault. -/

namespace Sys2Proof.Machine

variable {s u : State} {v : Byte} {busy : Bool} {body : Host.Outcome State Fault Refusal}

/-! ### The checks in front of a command's rule (60_exceptions R201, R202) -/

theorem requireConfigured_refuses (hc : s.configured = false) : s.RefusedWith .usageError (requireConfigured s body) :=
  if_neg (Bool.eq_false_iff.1 hc)

theorem refuseWhen_refuses (hbusy : busy = true) : s.RefusedWith .usageError (refuseWhen busy s body) :=
  if_pos hbusy

theorem requireConfigured_eq_body (hc : s.configured = true) : requireConfigured s body = body :=
  if_pos hc

theorem refuseWhen_eq_body (hbusy : busy = false) : refuseWhen busy s body = body :=
  if_neg (Bool.eq_false_iff.1 hbusy)

/-- A command with a span condition is refused while READY exactly as its condition says (60_exceptions R202). -/
theorem guarded_refuses (hc : s.configured = true) (hbusy : busy = true) :
    s.RefusedWith .usageError (requireConfigured s (refuseWhen busy s body)) :=
  (requireConfigured_eq_body hc).trans (refuseWhen_refuses hbusy)

theorem guarded_eq_body (hc : s.configured = true) (hbusy : busy = false) :
    requireConfigured s (refuseWhen busy s body) = body :=
  (requireConfigured_eq_body hc).trans (refuseWhen_eq_body hbusy)

/-! ### The storage accesses of a block in range -/

theorem State.InRange.cap_lt_total (h : s.InRange) : s.cap < s.total := by
  have := h.cap_add_m
  have := h.m_pos
  omega

/-- A real index and, in the head, its mirror cell are inside the storage (20_memory R51). -/
theorem State.InRange.storable (h : s.InRange) {i : Nat} (hi : i ≤ s.cap - 1) : s.Storable i := by
  have hlt := h.cap_lt_total
  have hsum := h.cap_add_m
  have hpos := h.m_pos
  have hbl : s.bl = s.m - 1 := rfl
  exact ⟨by omega, fun hhead => by omega⟩

theorem State.InRange.read_lt_total (h : s.InRange) : s.r < s.total := (h.storable h.read_le).1

/-! ### PUSH -/

/-- The word of PUSH carries its byte, whatever width it is widened through (30_encoding R82). -/
theorem encode_push : encode (.push v) = (0x20000000#32 ||| v.setWidth 32, []) := by
  have hwiden : (v.setWidth 16).setWidth 32 = v.setWidth 32 := BitVec.setWidth_setWidth (by decide)
  rw [← hwiden]
  exact encode_eq_matchBits_or (.push v)

theorem execPush_of_stored (hc : s.configured = true) (hidle : s.wsOpen = false) (h : storeMirrored s s.w v = .ok u) :
    execPush v s = .next (pushAdvance s.pushOverflows u) := by
  rw [execPush, guarded_eq_body hc hidle, h]

theorem pushAdvance_full (so : StorageOnly s u) : pushAdvance true u = { s with
    storage := u.storage, err := .overflow,
    responses := s.responses ++ [packResponse .ok .overflow .overflow 0 0] } := by
  rw [so.fields]
  rfl

theorem pushAdvance_not_full (so : StorageOnly s u) : pushAdvance false u = { s with
    storage := u.storage, writeIndex := toIndex (nextIndex s.cap s.w),
    responses := s.responses ++ [packResponse .ok .none s.err 0 0] } := by
  rw [so.fields]
  rfl

/-- Settles O17: in range the mirrored store succeeds and changes the storage only; whether `w` then advances is the fault
condition on the state before the command. -/
theorem pushStoresMirrorsAndAdvances : Obligations.PushStoresMirrorsAndAdvances := by
  intro v s
  refine ⟨encode_push, fun hc => requireConfigured_refuses hc, fun hc hopen => guarded_refuses hc hopen, fun hc hidle hr => ?_⟩
  obtain ⟨u, hstore⟩ := storeMirrored_ok (b := v) (hr.storable hr.write_le)
  obtain ⟨so, -, hbytes⟩ := storeMirrored_spec hstore
  have hexec : exec (.push v) s = .next (pushAdvance s.pushOverflows u) := execPush_of_stored hc hidle hstore
  refine ⟨(freeSpace_eq_zero hr.cap_pos hr.read_le hr.write_le).symm, u.storage,
    fun a => (so.byteAt a).trans (hbytes a), fun hfull => ?_, fun hroom => ?_⟩
  · have hoverflows : s.pushOverflows = true := beq_iff_eq.2 hfull
    rw [hexec, hoverflows, pushAdvance_full so]
  · have hoverflows : s.pushOverflows = false := beq_eq_false_iff_ne.2 hroom
    rw [hexec, hoverflows, pushAdvance_not_full so]

/-! ### POP -/

theorem execPop_of_idle (hc : s.configured = true) (hidle : s.rsOpen = false) (hr : s.r < s.total) :
    execPop s = .next (popResult (s.byteAt s.r) s) := by
  rw [execPop, guarded_eq_body hc hidle, memRead_eq_ok.2 ⟨hr, rfl⟩]

theorem State.isEmpty_iff : s.isEmpty = true ↔ s.r = s.w := beq_iff_eq

theorem popResult_of_empty {b : Byte} (h : s.r = s.w) : popResult b s = faultRespond .underflow s 0 (zextByte b) :=
  if_pos (State.isEmpty_iff.2 h)

theorem popResult_of_data {b : Byte} (h : s.r ≠ s.w) :
    popResult b s = respond (s.setRead (nextIndex s.cap s.r)) 0 (zextByte b) :=
  if_neg (mt State.isEmpty_iff.1 h)

/-- Settles O18: in range the read at `r` succeeds, and whether `r` then advances is `r = w`. -/
theorem popReturnsTheOldestByte : Obligations.PopReturnsTheOldestByte := by
  intro s
  refine ⟨encode_eq_matchBits_or .pop, fun hc => requireConfigured_refuses hc, fun hc hopen => guarded_refuses hc hopen,
    fun hc hidle hr hempty => ?_, fun hc hidle hr hdata => ?_⟩
  · calc exec .pop s = .next (popResult (s.byteAt s.r) s) := execPop_of_idle hc hidle hr.read_lt_total
      _ = .next (faultRespond .underflow s 0 (zextByte (s.byteAt s.r))) := by rw [popResult_of_empty hempty]
  · calc exec .pop s = .next (popResult (s.byteAt s.r) s) := execPop_of_idle hc hidle hr.read_lt_total
      _ = .next (respond (s.setRead (nextIndex s.cap s.r)) 0 (zextByte (s.byteAt s.r))) := by rw [popResult_of_data hdata]

end Sys2Proof.Machine
end

section
/-! SUPPORT. BULKW: what its loop stores and where it leaves the block (42_bulk_write R136), and its loop against the PUSHes of
the same bytes, store by store (R138). -/

namespace Sys2Proof.Machine

variable {s u : State} {len : Index} {data : List Byte} {b : Byte}

/-! ### BULKW branch by branch -/

/-- The loop of BULKW answers for every payload that fits. -/
theorem State.InRange.exists_storeRun (h : s.InRange) (hfit : data.length ≤ s.free) :
    ∃ u, storeRun s.w data 0 s = .ok u := by
  refine storeRun_ok fun k hk => h.storable ?_
  have := h.advIndex_write_lt (k := 0 + k) (by omega)
  omega

theorem length_take_bulkCount (hdata : data.length = len.toNat) :
    (data.take (s.bulkCount len)).length = s.bulkCount len := by
  rw [List.length_take, hdata]
  exact Nat.min_eq_left (Nat.min_le_left _ _)

theorem execBulkw_of_stored (hc : s.configured = true) (hidle : s.wsOpen = false)
    (h : storeRun s.w (data.take (s.bulkCount len)) 0 s = .ok u) :
    execBulkw len data s = .next (bulkAdvance (s.bulkOverflows len) (s.bulkCount len) u) := by
  rw [execBulkw, guarded_eq_body hc hidle, h]

theorem State.bulkOverflows_of_le (h : len.toNat ≤ s.free) : s.bulkOverflows len = false :=
  decide_eq_false (Nat.not_lt.2 h)

theorem State.bulkOverflows_of_gt (h : len.toNat > s.free) : s.bulkOverflows len = true :=
  decide_eq_true h

theorem bulkAdvance_fits (so : StorageOnly s u) (n : Nat) : bulkAdvance false n u = { s with
    storage := u.storage, writeIndex := toIndex (advIndex s.cap s.w n),
    responses := s.responses ++ [packResponse .ok .none s.err 0 (toIndex n)] } := by
  rw [so.fields]
  rfl

theorem bulkAdvance_overflow (so : StorageOnly s u) (n : Nat) : bulkAdvance true n u = { s with
    storage := u.storage, writeIndex := toIndex (advIndex s.cap s.w n), err := .overflow,
    responses := s.responses ++ [packResponse .ok .overflow .overflow 0 (toIndex n)] } := by
  rw [so.fields]
  rfl

/-- What stands in the storage after the first `n` payload bytes are stored: byte `j` at `adv(w, j)` and, in the head, at the
mirror cell of that index. -/
theorem storeRun_take_bytes (hr : s.InRange) {n : Nat} (hlen : (data.take n).length = n) (hfit : n ≤ s.free)
    (h : storeRun s.w (data.take n) 0 s = .ok u) {j : Nat} (hj : j < n) :
    data[j]? = some (u.byteAt (advIndex s.cap s.w j)) ∧
      (advIndex s.cap s.w j ≤ s.bl → data[j]? = some (u.byteAt (advIndex s.cap s.w j + s.cap))) := by
  have hsum := hr.dist_add_free
  have hbytes := storeRun_bytes h hr.write_le hr.cap_pos (by omega) j (by omega)
  rw [Nat.zero_add] at hbytes
  obtain ⟨hreal, hmirror⟩ := hbytes
  have hpayload : data[j]? = some (data.take n)[j] := by
    rw [← List.getElem?_eq_getElem, List.getElem?_take_of_lt hj]
  exact ⟨by rw [hpayload, hreal], fun hhead => by rw [hpayload, hmirror hhead]⟩

/-- Settles O19: in range the loop succeeds and changes the storage only, byte by byte as `storeRun_take_bytes` and
`storeRun_frame` say; the fault condition then chooses the ending. -/
theorem bulkWriteStoresWhatFits : Obligations.BulkWriteStoresWhatFits := by
  intro len data s hwf n
  refine ⟨encode_eq_matchBits_or (.bulkw len data), fun hc => requireConfigured_refuses hc,
    fun hc hopen => guarded_refuses hc hopen, fun hc hidle hr => ?_⟩
  have hcount : (data.take n).length = n := length_take_bulkCount (s := s) (beq_iff_eq.1 hwf)
  have hfit : n ≤ s.free := Nat.min_le_right _ _
  obtain ⟨u, hrun⟩ := hr.exists_storeRun (hcount.le.trans hfit)
  obtain ⟨so, hframe⟩ := storeRun_frame hrun
  have hexec : exec (.bulkw len data) s = .next (bulkAdvance (s.bulkOverflows len) n u) := execBulkw_of_stored hc hidle hrun
  simp only [hcount, Nat.zero_add] at hframe
  refine ⟨u.storage, fun j hj => ?_, fun a ha => (so.byteAt a).trans (hframe a ha), fun hle => ?_, fun hgt => ?_⟩
  · rw [so.byteAt, so.byteAt]
    exact storeRun_take_bytes hr hcount hfit hrun hj
  · rw [hexec, State.bulkOverflows_of_le hle, bulkAdvance_fits so]
  · rw [hexec, State.bulkOverflows_of_gt hgt, bulkAdvance_overflow so]

/-! ### BULKW against PUSH

The loop of BULKW leaves `w` where it was and counts the bytes; the PUSHes move `w` and answer each byte. Both make the same
stores in the same order, so no argument about the canonical form of the storage is needed. -/

/-- `s` with `w` moved on by the `n` bytes of as many PUSHes, which answered with `words`. -/
def State.afterPushes (s : State) (n : Nat) (words : List ResponseWord) : State :=
  { s with writeIndex := toIndex (advIndex s.cap s.w n), responses := words }

theorem State.afterPushes_zero (hw : s.w ≤ s.cap - 1) : s.afterPushes 0 s.responses = s := by
  have hindex : toIndex (advIndex s.cap s.w 0) = s.writeIndex := by
    rw [advIndex_zero hw]
    exact BitVec.eq_of_toNat_eq (toIndex_toNat s.writeIndex.isLt)
  rw [State.afterPushes, hindex]

theorem StorageOnly.inRange (so : StorageOnly s u) (h : s.InRange) : u.InRange := by
  rw [so.fields]; exact h

theorem StorageOnly.free (so : StorageOnly s u) : u.free = s.free := by rw [so.fields]; rfl

theorem State.InRange.afterPushes_w (h : s.InRange) {n : Nat} (hn : n ≤ s.free) (words : List ResponseWord) :
    (s.afterPushes n words).w = advIndex s.cap s.w n := by
  have := h.dist_add_free
  exact h.toIndex_advIndex h.write_le (by omega)

/-- A mirrored store as the one or two byte writes it makes. -/
theorem storeMirrored_of_storable {i : Nat} (h : s.Storable i) :
    storeMirrored s i b = .ok (if i ≤ s.bl then (s.setByte i b).setByte (i + s.cap) b else s.setByte i b) := by
  obtain ⟨hreal, hmirror⟩ := h
  rw [storeMirrored, memWrite_eq_ok.2 ⟨hreal, rfl⟩]
  by_cases hhead : i ≤ s.bl
  · have hcell : memWrite (s.setByte i b) (s.mirrorOf i) b = .ok ((s.setByte i b).setByte (i + s.cap) b) :=
      memWrite_eq_ok.2 ⟨hmirror hhead, rfl⟩
    rw [if_pos hhead, ← hcell]
    exact if_pos (decide_eq_true hhead)
  · rw [if_neg hhead]
    exact if_neg (mt of_decide_eq_true hhead)

/-- A mirrored store looks neither at `w` nor at the responses. -/
theorem storeMirrored_afterPushes {i n : Nat} (words : List ResponseWord) (h : storeMirrored s i b = .ok u) :
    storeMirrored (s.afterPushes n words) i b = .ok (u.afterPushes n words) := by
  obtain ⟨-, hstorable, -⟩ := storeMirrored_spec h
  have hstorable' : (s.afterPushes n words).Storable i := hstorable
  rw [storeMirrored_of_storable hstorable] at h
  obtain rfl := Except.ok.inj h
  rw [storeMirrored_of_storable hstorable']
  by_cases hhead : i ≤ s.bl
  · rw [if_pos hhead]
    exact congrArg Except.ok (if_pos hhead)
  · rw [if_neg hhead]
    exact congrArg Except.ok (if_neg hhead)

/-- One place short of the free space, the buffer is not yet full. -/
theorem State.InRange.not_full_afterPushes (h : s.InRange) {n : Nat} (hn : n < s.free) (words : List ResponseWord) :
    (s.afterPushes n words).pushOverflows = false := by
  have hsum := h.dist_add_free
  have hnext : nextIndex s.cap (s.afterPushes n words).w = advIndex s.cap s.r (s.dist + (n + 1)) := by
    rw [h.afterPushes_w hn.le, ← advIndex_succ h.write_le (by omega), h.advIndex_write hn]
  refine beq_eq_false_iff_ne.2 fun hfull : nextIndex s.cap (s.afterPushes n words).w = s.r => ?_
  rw [hnext] at hfull
  have := advIndex_injective (by omega) (Nat.zero_le _) (hfull.trans (advIndex_zero h.read_le).symm)
  omega

/-- One PUSH after `n` others, with room for it: the store that BULKW makes for that byte, and `w` one place further. -/
theorem exec_push_afterPushes (hc : s.configured = true) (hidle : s.wsOpen = false) (hr : s.InRange) {n : Nat}
    (hn : n < s.free) (words : List ResponseWord) (h : storeMirrored s (advIndex s.cap s.w n) b = .ok u) :
    ∃ words', exec (.push b) (s.afterPushes n words) = .next (u.afterPushes (n + 1) words') := by
  obtain ⟨so, -, -⟩ := storeMirrored_spec h
  have hru := so.inRange hr
  have hnu : n < u.free := so.free ▸ hn
  have hsum := hru.dist_add_free
  have hstore : storeMirrored (s.afterPushes n words) (s.afterPushes n words).w b = .ok (u.afterPushes n words) := by
    rw [hr.afterPushes_w hn.le]
    exact storeMirrored_afterPushes words h
  have hnext : nextIndex u.cap (u.afterPushes n words).w = advIndex u.cap u.w (n + 1) := by
    rw [hru.afterPushes_w hnu.le, advIndex_succ hru.write_le (by omega)]
  refine ⟨words ++ [packResponse .ok .none u.err 0 0], ?_⟩
  calc exec (.push b) (s.afterPushes n words)
      = .next (pushAdvance (s.afterPushes n words).pushOverflows (u.afterPushes n words)) := execPush_of_stored hc hidle hstore
    _ = .next (respond ((u.afterPushes n words).setWrite (nextIndex u.cap (u.afterPushes n words).w)) 0 0) := by
      rw [hr.not_full_afterPushes hn]; rfl
    _ = .next (u.afterPushes (n + 1) (words ++ [packResponse .ok .none u.err 0 0])) := by rw [hnext]; rfl

/-- The PUSHes of `data` after `j` others follow the loop of BULKW from its `j`-th byte on. -/
theorem pushAll_of_storeRun {j : Nat} (words : List ResponseWord) (hc : s.configured = true) (hidle : s.wsOpen = false)
    (hr : s.InRange) (hfit : j + data.length ≤ s.free) (h : storeRun s.w data j s = .ok u) :
    ∃ words', pushAll data (s.afterPushes j words) = .next (u.afterPushes (j + data.length) words') := by
  induction data generalizing s j words with
  | nil => cases h; exact ⟨words, rfl⟩
  | cons b rest ih =>
    rw [List.length_cons] at hfit ⊢
    simp only [storeRun] at h
    split at h
    · cases h
    · next s1 hstore =>
      obtain ⟨so, -, -⟩ := storeMirrored_spec hstore
      obtain ⟨hopen, -⟩ := so.spans
      obtain ⟨words1, hpush⟩ := exec_push_afterPushes hc hidle hr (by omega) words hstore
      obtain ⟨words', hrest⟩ := ih words1 (so.setup.configured.trans hc) (hopen.trans hidle) (so.inRange hr)
        (j := j + 1) (by rw [so.free]; omega) (by rw [so.w]; exact h)
      refine ⟨words', ?_⟩
      rw [pushAll, hpush, show j + (rest.length + 1) = j + 1 + rest.length by omega]
      exact hrest

/-- The bytes that fit, as R138 cuts them off and as R136 counts them. -/
theorem take_free_eq_take_bulkCount (hdata : data.length = len.toNat) :
    data.take s.free = data.take (s.bulkCount len) := by
  rw [List.take_eq_take_iff, State.bulkCount, hdata]
  omega

/-- Settles O20: the loop of BULKW and the PUSHes of the bytes that fit reach the same storage and the same `w`; BULKW raises
Overflow on top of it exactly when some did not fit. -/
theorem bulkWriteIsARunOfPushes : Obligations.BulkWriteIsARunOfPushes := by
  intro len data s hwf hc hidle hr _
  have hdata : data.length = len.toNat := beq_iff_eq.1 hwf
  have hfit : (data.take s.free).length ≤ s.free := List.length_take_le _ _
  obtain ⟨u, hrun⟩ := hr.exists_storeRun hfit
  obtain ⟨words, hpushes⟩ := pushAll_of_storeRun s.responses hc hidle hr (j := 0) (by omega) hrun
  rw [State.afterPushes_zero hr.write_le, Nat.zero_add] at hpushes
  rw [take_free_eq_take_bulkCount hdata] at hrun hpushes ⊢
  rw [length_take_bulkCount hdata] at hpushes
  refine ⟨_, _, execBulkw_of_stored hc hidle hrun, hpushes, fun hle => ?_, fun hgt => ?_⟩
  · rw [State.bulkOverflows_of_le hle]
    rfl
  · rw [State.bulkOverflows_of_gt hgt]
    rfl

end Sys2Proof.Machine
end

section
/-! SUPPORT. ALLOCW and COMMITW branch by branch (43_write_span R146, R147, R150, R152): the refusals in front, then a grant,
which is 0 in two situations only, or the two copies and the closing of the span. -/

namespace Sys2Proof.Machine

variable {s u : State} {len maxLen : Index}

/-! ### COMMITW -/

/-- COMMITW is refused when more than the granted length is committed (43_write_span R152(b)). -/
theorem execCommitw_refuses_of_gt (hc : s.configured = true) (hopen : s.wsOpen = true) (hlong : len.toNat > s.wsLen.toNat) :
    s.RefusedWith .usageError (execCommitw len s) :=
  (guarded_eq_body hc (by rw [hopen]; rfl)).trans (refuseWhen_refuses (decide_eq_true hlong))

/-- COMMITW is refused while no write span is open (43_write_span R152(a)). -/
theorem execCommitw_refuses_of_closed (hc : s.configured = true) (hclosed : s.wsOpen = false) :
    s.RefusedWith .usageError (execCommitw len s) :=
  guarded_refuses hc (by rw [hclosed]; rfl)

theorem execCommitw_of_copied (hc : s.configured = true) (hopen : s.wsOpen = true) (hfit : len.toNat ≤ s.wsLen.toNat)
    (h : commitCopies len.toNat s = .ok u) : execCommitw len s = .next (commitwResult len.toNat u) := by
  rw [execCommitw, guarded_eq_body hc (by rw [hopen]; rfl), refuseWhen_eq_body (decide_eq_false (Nat.not_lt.2 hfit)), h]

theorem commitwResult_eq (so : StorageOnly s u) (n : Nat) : commitwResult n u = { s with
    storage := u.storage, writeIndex := toIndex (advIndex s.cap s.w n), wsOpen := false, wsLen := 0,
    responses := s.responses ++ [packResponse .ok .none s.err 0 0] } := by
  rw [commitwResult, committedEnd_eq, so.fields]
  rfl

/-- Settles O24: in range both copies succeed and change the storage only, as `commitCopies_spec` says; the refusals are the
three checks in front of them. -/
theorem commitWriteMirrorsAndRelocates : Obligations.CommitWriteMirrorsAndRelocates := by
  intro len s
  refine ⟨encode_eq_matchBits_or (.commitw len), fun hc => requireConfigured_refuses hc,
    fun hc hclosed => execCommitw_refuses_of_closed hc hclosed,
    fun hc hopen hlong => execCommitw_refuses_of_gt hc hopen hlong, fun hc hopen hfit hr => ?_⟩
  obtain ⟨u, hcopies⟩ := commitCopies_ok hr hopen hfit
  obtain ⟨so, hbytes⟩ := commitCopies_spec hcopies
  have hexec : exec (.commitw len) s = .next (commitwResult len.toNat u) := execCommitw_of_copied hc hopen hfit hcopies
  exact ⟨u.storage, fun a => (so.byteAt a).trans (hbytes hr hopen hfit a), by rw [hexec, commitwResult_eq so]⟩

/-! ### ALLOCW -/

theorem execAllocw_of_closed (hc : s.configured = true) (hclosed : s.wsOpen = false) :
    execAllocw maxLen s = .next (allocwResult maxLen s) :=
  guarded_eq_body hc hclosed

theorem allocwResult_of_zero (h : s.writeGrant maxLen = 0) :
    allocwResult maxLen s = faultRespond .overflow s s.writeIndex 0 :=
  if_pos (beq_iff_eq.2 h)

theorem allocwResult_of_pos (h : 1 ≤ s.writeGrant maxLen) :
    allocwResult maxLen s =
      respond (s.openWrite (s.writeGrant maxLen)) s.writeIndex (toIndex (s.writeGrant maxLen)) :=
  if_neg (mt beq_iff_eq.1 (Nat.ne_of_gt h))

/-- Settles O21: whether the grant is 0 chooses between the fault and the opening of the span. -/
theorem allocWriteGrantsASpan : Obligations.AllocWriteGrantsASpan := by
  intro maxLen s g0 g
  have hgrant : s.writeGrant maxLen = g := rfl
  refine ⟨encode_eq_matchBits_or (.allocw maxLen), fun hc => requireConfigured_refuses hc,
    fun hc hopen => guarded_refuses hc hopen, fun hc hclosed hzero => ?_, fun hc hclosed hpos => ?_⟩
  · calc exec (.allocw maxLen) s = .next (allocwResult maxLen s) := execAllocw_of_closed hc hclosed
      _ = .next (faultRespond .overflow s s.writeIndex 0) := by rw [allocwResult_of_zero (hgrant.trans hzero)]
  · calc exec (.allocw maxLen) s = .next (allocwResult maxLen s) := execAllocw_of_closed hc hclosed
      _ = .next (respond (s.openWrite g) s.writeIndex (toIndex g)) := by rw [allocwResult_of_pos (hgrant ▸ hpos), hgrant]

/-! ### The zero grant -/

/-- A grant is 0 only for want of room or of a request: the cap at `m` never cuts a grant to 0 (43_write_span R147). -/
theorem grantLength_eq_zero_iff {cap m base n avail : Nat} (hm : 1 ≤ m) :
    grantLength cap m base n avail = 0 ↔ avail = 0 ∨ n = 0 := by
  unfold grantLength
  dsimp only
  split <;> omega

theorem State.InRange.writeGrant_eq_zero_iff (h : s.InRange) : s.writeGrant maxLen = 0 ↔ s.free = 0 ∨ maxLen = 0 := by
  have hnone : maxLen.toNat = 0 ↔ maxLen = 0 := BitVec.toNat_inj (y := 0)
  rw [State.writeGrant, grantLength_eq_zero_iff h.m_pos, hnone]

/-- Settles O22: the state after a zero grant is `s` with Overflow raised, so its write span is still closed. -/
theorem zeroWriteGrantExactly : Obligations.ZeroWriteGrantExactly := by
  intro maxLen s hc hr hclosed
  refine ⟨hr.writeGrant_eq_zero_iff, fun hzero => ⟨faultRespond .overflow s s.writeIndex 0, ?_, rfl, hclosed, rfl, fun len => ?_⟩⟩
  · calc exec (.allocw maxLen) s = .next (allocwResult maxLen s) := execAllocw_of_closed hc hclosed
      _ = .next (faultRespond .overflow s s.writeIndex 0) := by
        rw [allocwResult_of_zero (hr.writeGrant_eq_zero_iff.2 hzero)]
  · exact execCommitw_refuses_of_closed (s := faultRespond .overflow s s.writeIndex 0) hc hclosed

end Sys2Proof.Machine
end

section
/-! SUPPORT. ALLOCR and COMMITR branch by branch (44_read_span R166, R167, R170, R171): the refusals in front, then a grant on an
empty buffer, a zero grant on data or an opened span; and the release of the committed bytes. -/

namespace Sys2Proof.Machine

variable {s : State} {len maxLen : Index}

/-! ### What ALLOCR grants -/

theorem distIndex_self (cap i : Nat) : distIndex cap i i = 0 := by
  rw [distIndex, if_pos le_rfl, Nat.sub_self]

/-- Nothing is granted where nothing is available, capped at `m` or not. -/
theorem grantLength_of_avail_zero (cap m base n : Nat) : grantLength cap m base n 0 = 0 := by
  simp only [grantLength, Nat.min_zero, Nat.zero_min, ite_self]

/-- Underflow comes with a zero grant, in any state (44_read_span R167). -/
theorem State.readGrant_of_empty (h : s.r = s.w) : s.readGrant maxLen = 0 := by
  have hdist : s.dist = 0 := by rw [State.dist, h, distIndex_self]
  rw [State.readGrant, hdist, grantLength_of_avail_zero]

theorem State.grantRead_zero (s : State) : s.grantRead 0 = s := if_pos rfl

theorem State.grantRead_of_pos {g : Nat} (h : 1 ≤ g) : s.grantRead g = s.openRead g := if_neg (Nat.ne_of_gt h)

/-! ### ALLOCR -/

theorem execAllocr_of_closed (hc : s.configured = true) (hclosed : s.rsOpen = false) :
    execAllocr maxLen s = .next (allocrResult maxLen s) :=
  guarded_eq_body hc hclosed

theorem allocrResult_of_empty (h : s.r = s.w) :
    allocrResult maxLen s = faultRespond .underflow s s.readIndex 0 := by
  rw [allocrResult, if_pos (State.isEmpty_iff.2 h), State.readGrant_of_empty h, State.grantRead_zero]
  rfl

theorem allocrResult_of_data (h : s.r ≠ s.w) :
    allocrResult maxLen s =
      respond (s.grantRead (s.readGrant maxLen)) s.readIndex (toIndex (s.readGrant maxLen)) :=
  if_neg (mt State.isEmpty_iff.1 h)

/-- Settles O25: emptiness chooses the fault; on data, whether the grant is 0 chooses whether a span is opened. -/
theorem allocReadGrantsASpan : Obligations.AllocReadGrantsASpan := by
  intro maxLen s g0 g
  have hgrant : s.readGrant maxLen = g := rfl
  refine ⟨encode_eq_matchBits_or (.allocr maxLen), fun hc => requireConfigured_refuses hc,
    fun hc hopen => guarded_refuses hc hopen, fun hc hclosed hempty => ?_, fun hc hclosed hdata hzero => ?_,
    fun hc hclosed hdata hpos => ?_⟩
  · calc exec (.allocr maxLen) s = .next (allocrResult maxLen s) := execAllocr_of_closed hc hclosed
      _ = .next (faultRespond .underflow s s.readIndex 0) := by rw [allocrResult_of_empty hempty]
  · calc exec (.allocr maxLen) s = .next (allocrResult maxLen s) := execAllocr_of_closed hc hclosed
      _ = .next (respond s s.readIndex (toIndex 0)) := by
        rw [allocrResult_of_data hdata, hgrant, hzero, State.grantRead_zero]
  · calc exec (.allocr maxLen) s = .next (allocrResult maxLen s) := execAllocr_of_closed hc hclosed
      _ = .next (respond (s.openRead g) s.readIndex (toIndex g)) := by
        rw [allocrResult_of_data hdata, hgrant, State.grantRead_of_pos hpos]

/-! ### COMMITR -/

/-- COMMITR is refused while no read span is open (44_read_span R171). -/
theorem execCommitr_refuses_of_closed (hc : s.configured = true) (hclosed : s.rsOpen = false) :
    s.RefusedWith .usageError (execCommitr len s) :=
  guarded_refuses hc (by rw [hclosed]; rfl)

/-- COMMITR is refused when more than the granted length is committed (44_read_span R171). -/
theorem execCommitr_refuses_of_gt (hc : s.configured = true) (hopen : s.rsOpen = true) (hlong : len.toNat > s.rsLen.toNat) :
    s.RefusedWith .usageError (execCommitr len s) :=
  (guarded_eq_body hc (by rw [hopen]; rfl)).trans (refuseWhen_refuses (decide_eq_true hlong))

/-- COMMITR moves `r` on by `len`, as `adv` does, and closes the span (44_read_span R170). -/
theorem execCommitr_of_fits (hc : s.configured = true) (hopen : s.rsOpen = true) (hfit : len.toNat ≤ s.rsLen.toNat) :
    execCommitr len s = .next (respond ((s.setRead (advIndex s.cap s.r len.toNat)).closeRead) 0 0) := by
  rw [execCommitr, guarded_eq_body hc (by rw [hopen]; rfl), refuseWhen_eq_body (decide_eq_false (Nat.not_lt.2 hfit)),
    releasedTo_eq]

/-- Settles O26: behind the three checks COMMITR has one outcome, which writes `r` and the span registers only. -/
theorem commitReadReleases : Obligations.CommitReadReleases := by
  intro len s
  exact ⟨encode_eq_matchBits_or (.commitr len), fun hc => requireConfigured_refuses hc,
    fun hc hclosed => execCommitr_refuses_of_closed hc hclosed,
    fun hc hopen hlong => execCommitr_refuses_of_gt hc hopen hlong,
    fun hc hopen hfit => execCommitr_of_fits hc hopen hfit⟩

end Sys2Proof.Machine
end

section
/-! SUPPORT. LENGTH, HASDATA, GETERR and CLRERR behind their one check (45_status_queries R181 to R187), and the writers of the
sticky flag `err`, command by command and step by step (R189). -/

namespace Sys2Proof.Machine

variable {s t u : State} {i : Instr}

/-! ### The queries -/

/-- The distance is below the capacity, so VAL holds it whole (45_status_queries R181). -/
theorem State.InRange.toNat_toIndex_dist (h : s.InRange) : (toIndex s.dist).toNat = s.dist := by
  have hdist : s.dist ≤ s.cap - 1 := distIndex_le h.write_le
  have hcap := h.cap_lt_total
  have htotal := s.total_lt
  exact toIndex_toNat (by omega)

/-- LENGTH's VAL is 0 exactly for an empty buffer (45_status_queries R183). -/
theorem State.InRange.toIndex_dist_eq_zero_iff (h : s.InRange) : toIndex s.dist = 0 ↔ s.r = s.w := by
  have hval : toIndex s.dist = 0 ↔ (toIndex s.dist).toNat = 0 := (BitVec.toNat_inj (y := 0)).symm
  rw [hval, h.toNat_toIndex_dist]
  exact distIndex_eq_zero h.read_le h.write_le

/-- Settles O27: the check passed, LENGTH emits one word; the bound on the distance is that of the ring. -/
theorem lengthAnswersTheDistance : Obligations.LengthAnswersTheDistance := by
  intro s
  exact ⟨encode_eq_matchBits_or .length, fun hc => requireConfigured_refuses hc, fun hc => requireConfigured_eq_body hc,
    fun _ hr => ⟨hr.toNat_toIndex_dist, distIndex_le hr.write_le⟩⟩

theorem execHasdata_of_configured (hc : s.configured = true) :
    execHasdata s = .next (respond s 0 (if s.r ≠ s.w then 1 else 0)) := by
  have hval : (if s.isEmpty then 0 else 1 : Index) = if s.r ≠ s.w then 1 else 0 := by
    simp only [State.isEmpty_iff, ite_not]
  rw [execHasdata, requireConfigured_eq_body hc, hval]

/-- Settles O28: HASDATA's VAL is the negation of emptiness, and so, for a block in range, is LENGTH's being non-zero. -/
theorem hasDataAnswersNonEmptiness : Obligations.HasDataAnswersNonEmptiness := by
  intro s
  exact ⟨encode_eq_matchBits_or .hasdata, fun hc => requireConfigured_refuses hc, fun hc => execHasdata_of_configured hc,
    fun _ hr => not_congr hr.toIndex_dist_eq_zero_iff.symm⟩

/-- Settles O29: GETERR emits the widened code of `err`, which is read off for each of the three values. -/
theorem getErrorReadsWithoutClearing : Obligations.GetErrorReadsWithoutClearing := by
  intro s
  refine ⟨encode_eq_matchBits_or .geterr, fun hc => requireConfigured_refuses hc, fun hc => ?_⟩
  have hexec : exec .geterr s = .next (respond s 0 (s.err.code.setWidth 16)) := requireConfigured_eq_body hc
  refine hexec.trans (congrArg (Host.Outcome.next ∘ respond s 0) ?_)
  cases s.err <;> rfl

/-- Settles O30: CLRERR answers after its write, so ERR is None too and the word is 0. -/
theorem clearErrorClears : Obligations.ClearErrorClears := by
  intro s
  refine ⟨encode_eq_matchBits_or .clrerr, fun hc => requireConfigured_refuses hc, fun hc => ?_⟩
  calc exec .clrerr s = .next (respond (s.raiseFault .none) 0 0) := requireConfigured_eq_body hc
    _ = .next ((s.raiseFault .none).emit 0) := by rw [respond, State.raiseFault_err, packResponse_ok_none_zero]

/-! ### The writers of `err` -/

theorem StorageOnly.err (so : StorageOnly s u) : u.err = s.err := by rw [so.fields]

theorem State.grantRead_err (g : Nat) : (s.grantRead g).err = s.err := by
  unfold State.grantRead
  split <;> rfl

/-- The values each command may write to `err` on its way to `t` (10_state R25, 45_status_queries R189): INIT and CLRERR clear
it, INIT only where it configures the block; the write side raises Overflow, the read side Underflow. -/
inductive WritesErr (t : State) : Instr → ErrorCode → Prop
  | init (m0 : Index) (configures : t.configured = true) : WritesErr t (.init m0) .none
  | push (v : Byte) : WritesErr t (.push v) .overflow
  | pop : WritesErr t .pop .underflow
  | bulkw (len : Index) (data : List Byte) : WritesErr t (.bulkw len data) .overflow
  | allocw (maxLen : Index) : WritesErr t (.allocw maxLen) .overflow
  | allocr (maxLen : Index) : WritesErr t (.allocr maxLen) .underflow
  | clrerr : WritesErr t .clrerr .none

/-- How every command that can raise a fault `f` ends: it raises `f`, or answers with `err` as it was. -/
theorem err_of_faultRespond_or_respond {c : Prop} [Decidable c] {f : ErrorCode} {faulty answered : State}
    {ptr val ptr' val' : Index} (ht : t = if c then faultRespond f faulty ptr val else respond answered ptr' val')
    (hkept : answered.err = s.err) (hwrites : WritesErr t i f) : t.err = s.err ∨ WritesErr t i t.err := by
  split at ht <;> subst ht
  · exact .inr hwrites
  · exact .inl hkept

/-- A command leaves `err` alone or writes its own value there. -/
theorem exec_err (h : exec i s = .next t) : t.err = s.err ∨ WritesErr t i t.err := by
  cases i with
  | init m0 =>
    rcases execInit_next h with rfl | rfl | ⟨-, -, rfl⟩
    · exact .inl rfl
    · exact .inl rfl
    · exact .inr (.init m0 rfl)
  | push v =>
    rcases execPush_next h with rfl | ⟨-, -, u, hstore, rfl⟩
    · exact .inl rfl
    · exact err_of_faultRespond_or_respond rfl (storeMirrored_spec hstore).1.err (.push v)
  | pop =>
    rcases execPop_next h with rfl | ⟨-, -, -, rfl⟩
    · exact .inl rfl
    · exact err_of_faultRespond_or_respond rfl rfl .pop
  | bulkw len data =>
    rcases execBulkw_next h with rfl | ⟨-, -, u, hstore, rfl⟩
    · exact .inl rfl
    · exact err_of_faultRespond_or_respond rfl (storeRun_frame hstore).1.err (.bulkw len data)
  | allocw maxLen =>
    rcases execAllocw_next h with rfl | ⟨-, -, rfl⟩
    · exact .inl rfl
    · exact err_of_faultRespond_or_respond rfl rfl (.allocw maxLen)
  | commitw len =>
    rcases execCommitw_next h with rfl | ⟨-, -, -, u, hcopies, rfl⟩
    · exact .inl rfl
    · exact .inl (commitCopies_spec hcopies).1.err
  | allocr maxLen =>
    rcases execAllocr_next h with rfl | ⟨-, -, rfl⟩
    · exact .inl rfl
    · exact err_of_faultRespond_or_respond rfl (State.grantRead_err _) (.allocr maxLen)
  | commitr len => rcases execCommitr_next h with rfl | ⟨-, -, -, rfl⟩ <;> exact .inl rfl
  | length => rcases execLength_next h with rfl | ⟨-, rfl⟩ <;> exact .inl rfl
  | hasdata => rcases execHasdata_next h with rfl | ⟨-, rfl⟩ <;> exact .inl rfl
  | geterr => rcases execGeterr_next h with rfl | ⟨-, rfl⟩ <;> exact .inl rfl
  | clrerr =>
    rcases execClrerr_next h with rfl | ⟨-, rfl⟩
    · exact .inl rfl
    · exact .inr .clrerr

/-- The span port has no way to `err` (20_memory R60, R61). -/
theorem spanWrite_err {p : Index} {b : Byte} (h : spanWrite p b s = .next t) : t.err = s.err := by
  rcases spanWrite_next h with ⟨-, -, rfl⟩ | ⟨-, rfl⟩ <;> rfl

theorem spanRead_err {p : Index} (h : spanRead p s = .next t) : t.err = s.err := by
  rcases spanRead_next h with ⟨-, -, rfl⟩ | ⟨-, rfl⟩ <;> rfl

theorem State.nextCommand_of_decode {word : CommandWord} {payload : List Byte} {rest : List Request}
    (hq : s.requests = .command word payload :: rest) (hdec : decode word payload = .ok i) : s.nextCommand = some i := by
  simp only [State.nextCommand, hq, hdec, Except.toOption]

/-- A step leaves `err` alone, is a command that may write what `err` then holds, or is a reset. -/
theorem step_err (h : step s = .next t) :
    t.err = s.err ∨ (∃ i, s.nextCommand = some i ∧ WritesErr t i t.err) ∨
      ((∃ rest, s.requests = .reset :: rest) ∧ t.err = .none) := by
  rcases step_next h with ⟨-, rfl⟩ | ⟨word, payload, rest, i, hq, hdec, hexec⟩ | ⟨word, payload, rest, e, -, -, rfl⟩ |
    ⟨p, b, rest, -, hwrite⟩ | ⟨p, rest, -, hread⟩ | ⟨rest, hq, rfl⟩
  · exact .inl rfl
  · exact (exec_err hexec).imp_right fun hwrites => .inl ⟨i, State.nextCommand_of_decode hq hdec, hwrites⟩
  · exact .inl rfl
  · exact .inl (spanWrite_err (s := { s with requests := rest }) hwrite)
  · exact .inl (spanRead_err (s := { s with requests := rest }) hread)
  · exact .inr (.inr ⟨⟨rest, hq⟩, rfl⟩)

/-- Settles O49: a step that changes `err` is a reset or a command that writes it, and the value written tells which. -/
theorem stickyErrorHasItsOwnWriters : Obligations.StickyErrorHasItsOwnWriters := by
  intro s t hstep hchanged
  rcases step_err hstep with hsame | ⟨i, hnext, hwrites⟩ | ⟨hreset, hnone⟩
  · exact absurd hsame hchanged
  · refine ⟨fun herr => ?_, fun herr => ?_, fun herr => ?_⟩ <;> rw [herr] at hwrites
    · cases hwrites with
      | init m0 configures => exact .inr (.inl ⟨m0, hnext, configures⟩)
      | clrerr => exact .inl hnext
    · cases hwrites with
      | push v => exact .inl ⟨v, hnext⟩
      | bulkw len data => exact .inr (.inl ⟨len, data, hnext⟩)
      | allocw maxLen => exact .inr (.inr ⟨maxLen, hnext⟩)
    · cases hwrites with
      | pop => exact .inl hnext
      | allocr maxLen => exact .inr ⟨maxLen, hnext⟩
  · rw [hnone]
    exact ⟨fun _ => .inr (.inr hreset), nofun, nofun⟩

end Sys2Proof.Machine
end

section
/-! SUPPORT. The lifecycle and the span protocol over all commands (60_exceptions R201, R202): the check of the lifecycle in front
of every command but INIT, the two span conditions, and the answer of a command that passes them. -/

namespace Sys2Proof.Machine

variable {s u : State} {i : Instr} {o body : Host.Outcome State Fault Refusal} {len maxLen : Index} {ptr val : Index}

/-! ### The lifecycle -/

/-- Every command but INIT begins with the check of the lifecycle (60_exceptions R207 step 2). -/
theorem exec_eq_requireConfigured (hi : ∀ m0, i ≠ .init m0) (s : State) : ∃ body, exec i s = requireConfigured s body := by
  cases i with
  | init m0 => exact absurd rfl (hi m0)
  | _ => exact ⟨_, rfl⟩

/-- Settles O14: the check in front of every other command refuses it while UNCONFIGURED, and INIT's own first check refuses
INIT while READY. -/
theorem lifecycleRefusals : Obligations.LifecycleRefusals := by
  intro i s
  refine ⟨fun hc hi => ?_, fun hc ⟨m0, hinit⟩ => ?_⟩
  · obtain ⟨body, hexec⟩ := exec_eq_requireConfigured hi s
    exact hexec.trans (requireConfigured_refuses hc)
  · rw [hinit]
    exact execInit_of_configured hc

/-! ### The span condition of the two commits -/

/-- COMMITW and COMMITR are refused without a span and for more than its length (60_exceptions R202). -/
theorem spanGuarded_refuses {isOpen : Bool} {n spanLen : Nat} (hc : s.configured = true)
    (hbad : isOpen = false ∨ n > spanLen) :
    s.RefusedWith .usageError
      (requireConfigured s (refuseWhen (!isOpen) s (refuseWhen (decide (n > spanLen)) s body))) := by
  cases isOpen with
  | false => exact guarded_refuses hc rfl
  | true => exact (guarded_eq_body hc rfl).trans (refuseWhen_refuses (decide_eq_true (hbad.resolve_left nofun)))

/-! ### A command executed by its rule -/

/-- The command was executed by its rule: a next state with one response word more, of status OK, whose ERR field is `err` after
the command (30_encoding R90, R91). -/
def State.AnswersOk (s : State) (o : Host.Outcome State Fault Refusal) : Prop :=
  ∃ (t : State) (f : ErrorCode) (ptr val : Index), o = .next t ∧
    t.responses = s.responses ++ [packResponse .ok f t.err ptr val]

theorem State.AnswersOk.of_respond (h : o = .next (respond u ptr val)) (hu : u.responses = s.responses) : s.AnswersOk o :=
  ⟨respond u ptr val, .none, ptr, val, h, by rw [respond, State.emit_responses, State.emit_err, hu]⟩

theorem State.AnswersOk.of_faultRespond {f : ErrorCode} (h : o = .next (faultRespond f u ptr val))
    (hu : u.responses = s.responses) : s.AnswersOk o :=
  ⟨faultRespond f u ptr val, f, ptr, val, h, by
    rw [faultRespond, State.emit_responses, State.emit_err, State.raiseFault_responses, State.raiseFault_err, hu]⟩

/-- A fault does not refuse the command: either ending of a command that can raise one is an answer of status OK
(60_exceptions R197). -/
theorem State.AnswersOk.of_faultRespond_or_respond {c : Prop} [Decidable c] {f : ErrorCode} {faulty answered : State}
    {ptr' val' : Index}
    (h : o = .next (if c then faultRespond f faulty ptr val else respond answered ptr' val'))
    (hfaulty : faulty.responses = s.responses) (hanswered : answered.responses = s.responses) : s.AnswersOk o := by
  split at h
  · exact .of_faultRespond h hfaulty
  · exact .of_respond h hanswered

theorem StorageOnly.responses (so : StorageOnly s u) : u.responses = s.responses := by rw [so.fields]

theorem State.grantRead_responses (g : Nat) : (s.grantRead g).responses = s.responses := by
  unfold State.grantRead
  split <;> rfl

/-! ### The commands behind their span condition -/

theorem execPush_answersOk (v : Byte) (hc : s.configured = true) (hr : s.InRange) (hidle : s.wsOpen = false) :
    s.AnswersOk (execPush v s) := by
  obtain ⟨u, hstore⟩ := storeMirrored_ok (b := v) (hr.storable hr.write_le)
  obtain ⟨so, -, -⟩ := storeMirrored_spec hstore
  exact .of_faultRespond_or_respond (execPush_of_stored hc hidle hstore) so.responses so.responses

/-- No more than `free` bytes enter the loop, whether the payload is `len` bytes long or not. -/
theorem execBulkw_answersOk (data : List Byte) (hc : s.configured = true) (hr : s.InRange) (hidle : s.wsOpen = false) :
    s.AnswersOk (execBulkw len data s) := by
  have hfit : (data.take (s.bulkCount len)).length ≤ s.free := (List.length_take_le _ _).trans (Nat.min_le_right _ _)
  obtain ⟨u, hrun⟩ := hr.exists_storeRun hfit
  obtain ⟨so, -⟩ := storeRun_frame hrun
  exact .of_faultRespond_or_respond (execBulkw_of_stored hc hidle hrun) so.responses so.responses

theorem execAllocw_answersOk (hc : s.configured = true) (hclosed : s.wsOpen = false) : s.AnswersOk (execAllocw maxLen s) :=
  .of_faultRespond_or_respond (execAllocw_of_closed hc hclosed) rfl rfl

theorem execCommitw_answersOk (hc : s.configured = true) (hr : s.InRange) (hopen : s.wsOpen = true)
    (hfit : len.toNat ≤ s.wsLen.toNat) : s.AnswersOk (execCommitw len s) := by
  obtain ⟨u, hcopies⟩ := commitCopies_ok hr hopen hfit
  obtain ⟨so, -⟩ := commitCopies_spec hcopies
  exact .of_respond (execCommitw_of_copied hc hopen hfit hcopies) so.responses

theorem execPop_answersOk (hc : s.configured = true) (hr : s.InRange) (hidle : s.rsOpen = false) :
    s.AnswersOk (execPop s) :=
  .of_faultRespond_or_respond (execPop_of_idle hc hidle hr.read_lt_total) rfl rfl

theorem execAllocr_answersOk (hc : s.configured = true) (hclosed : s.rsOpen = false) : s.AnswersOk (execAllocr maxLen s) :=
  .of_faultRespond_or_respond (execAllocr_of_closed hc hclosed) (State.grantRead_responses _) (State.grantRead_responses _)

theorem execCommitr_answersOk (hc : s.configured = true) (hopen : s.rsOpen = true) (hfit : len.toNat ≤ s.rsLen.toNat) :
    s.AnswersOk (execCommitr len s) :=
  .of_respond (execCommitr_of_fits hc hopen hfit) rfl

/-! ### The span protocol -/

/-- Settles O15: row by row of the table, the span condition is the check that refuses the command, and behind it the command
answers; a status command has no such check. -/
theorem spanProtocolRefusals : Obligations.SpanProtocolRefusals := by
  intro i s hc hr hi
  cases i with
  | init m0 => exact absurd rfl (hi m0)
  | push v =>
    exact ⟨fun hopen => guarded_refuses hc hopen, fun h => execPush_answersOk v hc hr (Bool.eq_false_iff.2 h)⟩
  | bulkw len data =>
    exact ⟨fun hopen => guarded_refuses hc hopen, fun h => execBulkw_answersOk data hc hr (Bool.eq_false_iff.2 h)⟩
  | allocw maxLen =>
    exact ⟨fun hopen => guarded_refuses hc hopen, fun h => execAllocw_answersOk hc (Bool.eq_false_iff.2 h)⟩
  | commitw len =>
    refine ⟨fun hbad => spanGuarded_refuses hc hbad, fun h => ?_⟩
    obtain ⟨hopen, hfit⟩ := not_or.1 h
    exact execCommitw_answersOk hc hr (Bool.of_not_eq_false hopen) (Nat.not_lt.1 hfit)
  | pop =>
    exact ⟨fun hopen => guarded_refuses hc hopen, fun h => execPop_answersOk hc hr (Bool.eq_false_iff.2 h)⟩
  | allocr maxLen =>
    exact ⟨fun hopen => guarded_refuses hc hopen, fun h => execAllocr_answersOk hc (Bool.eq_false_iff.2 h)⟩
  | commitr len =>
    refine ⟨fun hbad => spanGuarded_refuses hc hbad, fun h => ?_⟩
    obtain ⟨hopen, hfit⟩ := not_or.1 h
    exact execCommitr_answersOk hc (Bool.of_not_eq_false hopen) (Nat.not_lt.1 hfit)
  | length | hasdata | geterr | clrerr =>
    exact ⟨False.elim, fun _ => State.AnswersOk.of_respond (requireConfigured_eq_body hc) rfl⟩

end Sys2Proof.Machine
end

section
/-! SUPPORT. What a step does to an outstanding read span: it writes free cells only, which are no part of the span, and
releases no live byte without closing it (70_reset R236); and the reset input (R225, R226). -/

namespace Sys2Proof.Machine

variable {s t u : State} {i : Instr} {out : List Byte}

/-! ### The effect of a step on the read side -/

/-- The step from `s` to `t` that delivers `out` writes free cells only; where it leaves a read span open, it moves neither end
of it and delivers nothing. -/
structure LeavesReadSpan (s t : State) (out : List Byte) : Prop where
  cells : KeepsUsedCells s t
  span : t.rsOpen = true → t.readIndex = s.readIndex ∧ t.rsLen = s.rsLen ∧ out = []

theorem LeavesReadSpan.refl (s : State) : LeavesReadSpan s s [] := ⟨fun _ _ => rfl, fun _ => ⟨rfl, rfl, rfl⟩⟩

theorem LeavesReadSpan.emit (h : LeavesReadSpan s t out) (word : ResponseWord) : LeavesReadSpan s (t.emit word) out :=
  ⟨h.cells, h.span⟩

theorem LeavesReadSpan.reply (h : LeavesReadSpan s t out) (answer : SpanReply) : LeavesReadSpan s (t.reply answer) out :=
  ⟨h.cells, h.span⟩

theorem LeavesReadSpan.raiseFault (h : LeavesReadSpan s t out) (f : ErrorCode) : LeavesReadSpan s (t.raiseFault f) out :=
  ⟨h.cells, h.span⟩

theorem LeavesReadSpan.setWrite (h : LeavesReadSpan s t out) (n : Nat) : LeavesReadSpan s (t.setWrite n) out :=
  ⟨h.cells, h.span⟩

theorem LeavesReadSpan.closeWrite (h : LeavesReadSpan s t out) : LeavesReadSpan s t.closeWrite out :=
  ⟨h.cells, h.span⟩

theorem LeavesReadSpan.openWrite (h : LeavesReadSpan s t out) (g : Nat) : LeavesReadSpan s (t.openWrite g) out :=
  ⟨h.cells, h.span⟩

/-- A refused command that would have delivered nothing anyway. -/
theorem LeavesReadSpan.refuse (hout : out = []) (st : Status) : LeavesReadSpan s (Machine.refuse st s) out :=
  hout ▸ (LeavesReadSpan.refl s).emit _

/-- How every command of the write side ends, with a fault `f` or without. -/
theorem LeavesReadSpan.faultRespond_or_respond {c : Prop} [Decidable c] {f : ErrorCode} {faulty answered : State}
    {ptr val ptr' val' : Index} (hfaulty : LeavesReadSpan s faulty out) (hanswered : LeavesReadSpan s answered out) :
    LeavesReadSpan s (if c then faultRespond f faulty ptr val else respond answered ptr' val') out := by
  split
  · exact (hfaulty.raiseFault f).emit _
  · exact hanswered.emit _

theorem StorageOnly.leavesReadSpan (so : StorageOnly s u) (hcells : KeepsUsedCells s u) : LeavesReadSpan s u [] := by
  obtain ⟨-, -, -, hlen⟩ := so.spans
  exact ⟨hcells, fun _ => ⟨by rw [so.fields], hlen, rfl⟩⟩

/-! ### The commands that store -/

theorem execPush_leavesReadSpan {v : Byte} (hr : s.InRange) (h : execPush v s = .next t) : LeavesReadSpan s t [] := by
  rcases execPush_next h with rfl | ⟨-, -, u, hstore, rfl⟩
  · exact .refuse rfl _
  · obtain ⟨so, -⟩ := storeMirrored_spec hstore
    have hu := so.leavesReadSpan (storeRun_keepsUsedCells (storeRun_singleton hr.write_le hstore) (by simp))
    exact .faultRespond_or_respond hu (hu.setWrite _)

theorem execBulkw_leavesReadSpan {len : Index} {data : List Byte} (h : execBulkw len data s = .next t) :
    LeavesReadSpan s t [] := by
  rcases execBulkw_next h with rfl | ⟨-, -, u, hstore, rfl⟩
  · exact .refuse rfl _
  · have hfit : (data.take (s.bulkCount len)).length ≤ s.free + 1 := by
      rw [List.length_take, State.bulkCount]; omega
    have hu := (storeRun_frame hstore).1.leavesReadSpan (storeRun_keepsUsedCells hstore hfit)
    exact .faultRespond_or_respond (hu.setWrite _) (hu.setWrite _)

theorem execCommitw_leavesReadSpan {len : Index} (hr : s.InRange) (h : execCommitw len s = .next t) :
    LeavesReadSpan s t [] := by
  rcases execCommitw_next h with rfl | ⟨-, hopen, hlen, u, hcopies, rfl⟩
  · exact .refuse rfl _
  · have hu := (commitCopies_spec hcopies).1.leavesReadSpan (commitCopies_keepsUsedCells hr hopen hlen hcopies)
    exact ((hu.setWrite _).closeWrite).emit _

/-! ### The commands that release -/

/-- POP is refused while a read span is outstanding (44_read_span R168). -/
theorem execPop_leavesReadSpan (hopen : s.rsOpen = true) (h : execPop s = .next t) :
    LeavesReadSpan s t (s.deliveredBy .pop) := by
  rcases execPop_next h with rfl | ⟨-, hclosed, -⟩
  · exact .refuse (by simp [State.deliveredBy, hopen]) _
  · exact absurd (hopen.symm.trans hclosed) nofun

/-- COMMITR delivers only where it closes the span (44_read_span R170). -/
theorem execCommitr_leavesReadSpan {len : Index} (h : execCommitr len s = .next t) :
    LeavesReadSpan s t (s.deliveredBy (.commitr len)) := by
  rcases spanGuarded_next h with ⟨hguard, rfl⟩ | ⟨-, -, -, hbody⟩
  · exact .refuse (by simp only [State.deliveredBy, hguard]; rfl) _
  · injection hbody with hbody
    subst hbody
    exact ⟨fun _ _ => rfl, nofun⟩

/-! ### Every command, every span-port request -/

theorem exec_leavesReadSpan (hr : s.InRange) (hc : s.configured = true) (hopen : s.rsOpen = true)
    (h : exec i s = .next t) : LeavesReadSpan s t (s.deliveredBy i) := by
  cases i with
  | init m0 =>
    obtain rfl : refuse .usageError s = t := by
      simpa [exec, execInit_of_configured hc] using h
    exact .refuse rfl _
  | push v => exact execPush_leavesReadSpan hr h
  | pop => exact execPop_leavesReadSpan hopen h
  | bulkw len data => exact execBulkw_leavesReadSpan h
  | allocw maxLen =>
    rcases execAllocw_next h with rfl | ⟨-, -, rfl⟩
    · exact .refuse rfl _
    · exact .faultRespond_or_respond (.refl s) ((LeavesReadSpan.refl s).openWrite _)
  | commitw len => exact execCommitw_leavesReadSpan hr h
  | allocr maxLen =>
    rcases execAllocr_next h with rfl | ⟨-, hclosed, -⟩
    · exact .refuse rfl _
    · exact absurd (hopen.symm.trans hclosed) nofun
  | commitr len => exact execCommitr_leavesReadSpan h
  | length => rcases execLength_next h with rfl | ⟨-, rfl⟩ <;> exact (LeavesReadSpan.refl s).emit _
  | hasdata => rcases execHasdata_next h with rfl | ⟨-, rfl⟩ <;> exact (LeavesReadSpan.refl s).emit _
  | geterr => rcases execGeterr_next h with rfl | ⟨-, rfl⟩ <;> exact (LeavesReadSpan.refl s).emit _
  | clrerr =>
    rcases execClrerr_next h with rfl | ⟨-, rfl⟩
    · exact .refuse rfl _
    · exact ((LeavesReadSpan.refl s).raiseFault _).emit _

/-- An accepted SPAN_WR writes a cell of the write span, which is free (20_memory R61, 10_state R32). -/
theorem spanWrite_leavesReadSpan {p : Index} {b : Byte} (hr : s.InRange) (h : spanWrite p b s = .next t) :
    LeavesReadSpan s t [] := by
  rcases spanWrite_next h with ⟨hin, hp, rfl⟩ | ⟨-, rfl⟩
  · have hcells : KeepsUsedCells s (s.setByte p.toNat b) := fun a ha => by
      obtain ⟨k, hk, hfree⟩ := hr.inWriteSpan_free hin
      obtain ⟨hreal, hmirror⟩ := ha k hk
      rw [State.setByte_byteAt, if_neg (by omega)]
    exact ((storageOnly_setByte hp).leavesReadSpan hcells).reply _
  · exact (LeavesReadSpan.refl s).reply _

theorem spanRead_leavesReadSpan {p : Index} (h : spanRead p s = .next t) : LeavesReadSpan s t [] := by
  rcases spanRead_next h with ⟨-, -, rfl⟩ | ⟨-, rfl⟩ <;> exact (LeavesReadSpan.refl s).reply _

/-! ### The step -/

/-- A step from a block in range with a read span open; a reset closes the span. -/
theorem step_leavesReadSpan (hr : s.InRange) (hc : s.configured = true) (hopen : s.rsOpen = true) (h : step s = .next t) :
    LeavesReadSpan s t s.deliveredNow := by
  rcases step_next h with ⟨hq, rfl⟩ | ⟨word, payload, rest, i, hq, hdec, hexec⟩ | ⟨word, payload, rest, e, hq, hdec, rfl⟩ |
    ⟨p, b, rest, hq, hwrite⟩ | ⟨p, rest, hq, hread⟩ | ⟨rest, -, rfl⟩
  · rw [(State.streamsNow_of_no_command (by simp [State.nextCommand, hq])).1]
    exact .refl t
  · rw [State.deliveredNow_of_nextCommand (State.nextCommand_of_decode hq hdec)]
    obtain ⟨hcells, hspan⟩ := exec_leavesReadSpan (s := { s with requests := rest }) hr hc hopen hexec
    exact ⟨hcells, hspan⟩
  · rw [(State.streamsNow_of_no_command (by simp [State.nextCommand, hq, hdec, Except.toOption])).1]
    exact ⟨fun _ _ => rfl, fun _ => ⟨rfl, rfl, rfl⟩⟩
  · rw [(State.streamsNow_of_no_command (by simp [State.nextCommand, hq])).1]
    obtain ⟨hcells, hspan⟩ := spanWrite_leavesReadSpan (s := { s with requests := rest }) hr hwrite
    exact ⟨hcells, hspan⟩
  · rw [(State.streamsNow_of_no_command (by simp [State.nextCommand, hq])).1]
    obtain ⟨hcells, hspan⟩ := spanRead_leavesReadSpan (s := { s with requests := rest }) hread
    exact ⟨hcells, hspan⟩
  · exact ⟨fun _ _ => rfl, nofun⟩

theorem step_of_reset {rest : List Request} (hq : s.requests = .reset :: rest) :
    step s = .next (hardwareReset { s with requests := rest }) := by
  simp only [step, serveNext, hq, serve]

/-- A span is outstanding in a READY block only (10_state R40). -/
theorem State.RegisterInv.configured_of_rsOpen (h : s.RegisterInv) (hopen : s.rsOpen = true) : s.configured = true := by
  by_contra hc
  obtain ⟨-, -, -, -, -, -, hclosed, -⟩ := h.1 (Bool.eq_false_iff.2 hc)
  exact absurd (hopen.symm.trans hclosed) nofun

/-- A step that delivers nothing and is no reset does not shorten the data: by conservation the live bytes after it are those
before it and what it accepts (10_state R37). -/
theorem dist_le_of_delivers_nothing (hs : s.Inv) (hc : s.configured = true) (hct : t.configured = true)
    (hreset : ∀ rest, s.requests ≠ .reset :: rest) (hout : s.deliveredNow = []) (h : step s = .next t) :
    s.dist ≤ t.dist := by
  have hstream : s.deliveredNow ++ t.liveBytes = s.liveBytes ++ s.acceptedNow := (step_conserves hs hreset h).stream
  rw [hout, List.nil_append] at hstream
  rw [← State.length_liveBytes hc, ← State.length_liveBytes hct, hstream, List.length_append]
  exact Nat.le_add_right _ _

/-! ### The statements -/

/-- Settles O34: the span holds live bytes and mirror cells of live bytes, which no step writes; a step that leaves the span
open is no reset and delivers nothing. -/
theorem readSpanIsStable : Obligations.ReadSpanIsStable := by
  intro s t hs hc hopen hstep
  have hr := hs.inRange hc
  obtain ⟨hcells, hspan⟩ := step_leavesReadSpan hr hc hopen hstep
  refine ⟨fun p hlow hhigh => ?_, fun hopen' => ?_⟩
  · obtain ⟨hdist, hindex⟩ := hr.inReadSpan_live (State.inReadSpan_iff.2 ⟨hc, hopen, hlow, hhigh⟩)
    obtain ⟨hbyte, hmirror⟩ := hcells.live hr ⟨_, hdist, rfl⟩
    rcases hindex with hreal | ⟨hreal, -⟩
    · rw [hreal]; exact hbyte
    · rw [hreal]; exact hmirror
  · obtain ⟨hread, hlen, hout⟩ := hspan hopen'
    have hreset : ∀ rest, s.requests ≠ .reset :: rest := fun rest hq => by
      rw [step_of_reset hq] at hstep
      injection hstep with hstep
      rw [← hstep] at hopen'
      exact absurd hopen' nofun
    have hct := (step_conserves hs hreset hstep).inv.1.configured_of_rsOpen hopen'
    exact ⟨hread, hlen, dist_le_of_delivers_nothing hs hc hct hreset hout hstep⟩

/-- Settles O13: the fields are read off the state after the reset; that state is UNCONFIGURED, where the lifecycle refuses
every command but INIT and no address lies in a span. -/
theorem resetInputClearsTheRegisters : Obligations.ResetInputClearsTheRegisters := by
  intro s rest hq
  have hc : (hardwareReset { s with requests := rest }).configured = false := rfl
  refine ⟨_, step_of_reset hq, hc, ⟨rfl, rfl, rfl, rfl, rfl, rfl, rfl, rfl⟩, rfl, fun _ => rfl, rfl, rfl, rfl, rfl, rfl,
    fun i hi => (lifecycleRefusals i _).1 hc hi, fun p b => ⟨?_, ?_⟩⟩
  · exact spanWrite_of_not_inWriteSpan fun hin => absurd (State.inWriteSpan_iff.1 hin).1 nofun
  · exact spanRead_of_not_inReadSpan fun hin => absurd (State.inReadSpan_iff.1 hin).1 nofun

end Sys2Proof.Machine
end

section
/-! SUPPORT. The decoder and the encoder are inverse to each other (30_encoding R84, R86), and the fields of a response word lie
where 30_encoding R90 puts them. -/

namespace Sys2Proof

variable {word : CommandWord} {payload : List Byte} {i : Instr}

/-! ### Decode and encode -/

theorem decode_encode (hwf : i.wellFormed = true) : decode (encode i).1 (encode i).2 = .ok i :=
  decode_eq_ok_iff.2 ⟨commandRsv_commandWord _ _, (commandOpc_commandWord _ _).symm, (commandArg_commandWord _ _).symm, rfl, hwf⟩

theorem encode_of_decode (h : decode word payload = .ok i) : encode i = (word, payload) := by
  obtain ⟨hrsv, hopc, harg, hpayload, -⟩ := decode_eq_ok_iff.1 h
  rw [encode, ← eq_commandWord_iff.2 ⟨hrsv, hopc, harg⟩, hpayload]

/-- Settles O1: every field of a command's word reads back, and the opcode map finds the command under its fields. -/
theorem decodeOfEncodeIsTheCommand : Obligations.DecodeOfEncodeIsTheCommand :=
  fun _ hwf => decode_encode hwf

/-- Settles O2: what decodes has the fields of its word and no reserved bit, and the fields make the word. -/
theorem decodedTransactionIsItsEncoding : Obligations.DecodedTransactionIsItsEncoding :=
  fun _ _ _ h => ⟨encode_of_decode h, Machine.decode_wellFormed h⟩

/-- Settles O5: the decoder evaluated on each of the twelve words. -/
theorem writtenOutWordsDecode : Obligations.WrittenOutWordsDecode :=
  ⟨rfl, rfl, rfl, rfl, rfl, rfl, rfl, rfl, rfl, rfl, rfl, rfl⟩

namespace Machine

variable {st : Status} {fault err : ErrorCode} {ptr val : Index}

/-! ### The fields of a response word (30_encoding R90) -/

/-- Fields put beside each other: the upper one a multiple of `2 ^ k`, the lower one below it. -/
theorem toNat_or_of_dvd {width m n : Nat} {x y : BitVec width} (k : Nat) (hx : x.toNat = m) (hy : y.toNat = n)
    (hm : 2 ^ k ∣ m) (hn : n < 2 ^ k) : (x ||| y).toNat = m + n := by
  obtain ⟨q, rfl⟩ := hm
  rw [BitVec.toNat_or, hx, hy, Nat.two_pow_add_eq_or_of_lt hn]

/-- A field widened to the response word and moved to bit `k`, when it ends inside the word. -/
theorem toNat_setWidth_shiftLeft {width k : Nat} (x : BitVec width) (h : width + k ≤ 64) :
    (x.setWidth 64 <<< k).toNat = x.toNat * 2 ^ k := by
  have hx : x.toNat * 2 ^ k < 2 ^ 64 := calc
    x.toNat * 2 ^ k < 2 ^ width * 2 ^ k := Nat.mul_lt_mul_of_pos_right x.isLt (Nat.two_pow_pos k)
    _ = 2 ^ (width + k) := (Nat.pow_add _ _ _).symm
    _ ≤ 2 ^ 64 := Nat.pow_le_pow_right (by omega) h
  have hwide : x.toNat < 2 ^ 64 := lt_of_le_of_lt (Nat.le_mul_of_pos_right _ (Nat.two_pow_pos k)) hx
  rw [BitVec.toNat_shiftLeft, BitVec.toNat_setWidth, Nat.mod_eq_of_lt hwide, Nat.shiftLeft_eq, Nat.mod_eq_of_lt hx]

/-- The response word as a number: its fields are the digits, highest first. -/
theorem packResponse_toNat : (packResponse st fault err ptr val).toNat =
    st.code.toNat * 2 ^ 60 + fault.code.toNat * 2 ^ 58 + err.code.toNat * 2 ^ 56 + ptr.toNat * 2 ^ 16 + val.toNat := by
  have hfault := fault.code.isLt
  have herr := err.code.isLt
  have hptr := ptr.isLt
  have hval := val.isLt
  have hstField := toNat_setWidth_shiftLeft (k := 60) st.code (by omega)
  have hfaultField := toNat_setWidth_shiftLeft (k := 58) fault.code (by omega)
  have herrField := toNat_setWidth_shiftLeft (k := 56) err.code (by omega)
  have hptrField := toNat_setWidth_shiftLeft (k := 16) ptr (by omega)
  have hvalField : (val.setWidth 64).toNat = val.toNat := BitVec.toNat_setWidth_of_le (by omega)
  have htoFault := toNat_or_of_dvd 60 hstField hfaultField (by omega) (by omega)
  have htoErr := toNat_or_of_dvd 58 htoFault herrField (by omega) (by omega)
  have htoPtr := toNat_or_of_dvd 56 htoErr hptrField (by omega) (by omega)
  exact toNat_or_of_dvd 16 htoPtr hvalField (by omega) (by omega)

/-- A bit field as a digit of the number. -/
theorem toNat_extractLsb' {width : Nat} (x : BitVec width) (k n : Nat) :
    (x.extractLsb' k n).toNat = x.toNat / 2 ^ k % 2 ^ n := by
  rw [BitVec.extractLsb'_toNat, Nat.shiftRight_eq_div_pow]

/-- Settles O6: each field is a run of digits of the packed number, in which the fields do not meet. -/
theorem responseFieldsReadBack : Obligations.ResponseFieldsReadBack := by
  intro st fault err ptr val word
  have hst := st.code.isLt
  have hfault := fault.code.isLt
  have herr := err.code.isLt
  have hptr := ptr.isLt
  have hval := val.isLt
  have hword : word.toNat = _ := packResponse_toNat
  have hstField : (word.extractLsb' 60 4).toNat = st.code.toNat := by rw [toNat_extractLsb', hword]; omega
  have hfaultField : (word.extractLsb' 58 2).toNat = fault.code.toNat := by rw [toNat_extractLsb', hword]; omega
  have herrField : (word.extractLsb' 56 2).toNat = err.code.toNat := by rw [toNat_extractLsb', hword]; omega
  have hzeroField : (word.extractLsb' 32 24).toNat = 0 := by rw [toNat_extractLsb', hword]; omega
  have hptrField : (word.extractLsb' 16 16).toNat = ptr.toNat := by rw [toNat_extractLsb', hword]; omega
  have hvalField : (word.extractLsb' 0 16).toNat = val.toNat := by rw [toNat_extractLsb', hword]; omega
  refine ⟨?_, ?_, ?_, BitVec.eq_of_toNat_eq hzeroField, BitVec.eq_of_toNat_eq hptrField, BitVec.eq_of_toNat_eq hvalField⟩
  · rw [hstField]; cases st <;> rfl
  · rw [hfaultField]; cases fault <;> rfl
  · rw [herrField]; cases err <;> rfl

end Machine

end Sys2Proof
end

section
/-! SUPPORT. What every command leaves alone until it answers with its one response word: the environment's steps, the earlier
outputs, the configuration of a READY block and the canonical form of the storage (60_exceptions R205, 10_state R22). -/

namespace Sys2Proof.Machine

variable {s t u : State} {i : Instr}

/-! ### A state on the way of a command -/

/-- `u` is a state that a command started in `s` may reach before it answers. -/
structure WithinCommand (s u : State) : Prop where
  requests : u.requests = s.requests
  responses : u.responses = s.responses
  spanReplies : u.spanReplies = s.spanReplies
  totalSize : u.totalSize = s.totalSize
  powerUpFixed : u.powerUpFixed = s.powerUpFixed
  ready : s.configured = true → u.configured = true ∧ u.mirrorSize = s.mirrorSize
  memory : s.MemoryInv → u.MemoryInv

theorem WithinCommand.refl (s : State) : WithinCommand s s := ⟨rfl, rfl, rfl, rfl, rfl, fun hc => ⟨hc, rfl⟩, id⟩

theorem StorageOnly.withinCommand (so : StorageOnly s u) : WithinCommand s u where
  requests := by rw [so.fields]
  responses := so.responses
  spanReplies := by rw [so.fields]
  totalSize := by rw [so.fields]
  powerUpFixed := by rw [so.fields]
  ready hc := ⟨so.setup.configured.trans hc, by rw [so.fields]⟩
  memory := so.inv

theorem WithinCommand.raiseFault (h : WithinCommand s u) (f : ErrorCode) : WithinCommand s (u.raiseFault f) := { h with }

theorem WithinCommand.setWrite (h : WithinCommand s u) (n : Nat) : WithinCommand s (u.setWrite n) := { h with }

theorem WithinCommand.setRead (h : WithinCommand s u) (n : Nat) : WithinCommand s (u.setRead n) := { h with }

theorem WithinCommand.openWrite (h : WithinCommand s u) (g : Nat) : WithinCommand s (u.openWrite g) := { h with }

theorem WithinCommand.closeWrite (h : WithinCommand s u) : WithinCommand s u.closeWrite := { h with }

theorem WithinCommand.closeRead (h : WithinCommand s u) : WithinCommand s u.closeRead := { h with }

theorem WithinCommand.grantRead (h : WithinCommand s u) (g : Nat) : WithinCommand s (u.grantRead g) := by
  unfold State.grantRead
  split
  · exact h
  · exact { h with }

/-- INIT constructs only where the block is UNCONFIGURED (40_construction R112). -/
theorem withinCommand_construct (hc : s.configured = false) (m0 : Index) : WithinCommand s (s.construct m0) where
  requests := rfl
  responses := rfl
  spanReplies := rfl
  totalSize := rfl
  powerUpFixed := rfl
  ready hready := absurd (hready.symm.trans hc) nofun
  memory := id

/-! ### The answer -/

/-- `t` is reached from `s` by a command that answers with one word, after its last change of the state. -/
def Answers (s t : State) : Prop := ∃ u word, WithinCommand s u ∧ t = u.emit word

theorem WithinCommand.emit (h : WithinCommand s u) (word : ResponseWord) : Answers s (u.emit word) := ⟨u, word, h, rfl⟩

theorem WithinCommand.respond (h : WithinCommand s u) (ptr val : Index) : Answers s (Machine.respond u ptr val) := h.emit _

theorem Answers.refuse (st : Status) (s : State) : Answers s (Machine.refuse st s) := (WithinCommand.refl s).emit _

/-- How every command that can raise a fault `f` ends. -/
theorem Answers.faultRespond_or_respond {c : Prop} [Decidable c] {f : ErrorCode} {faulty answered : State}
    {ptr val ptr' val' : Index} (hfaulty : WithinCommand s faulty) (hanswered : WithinCommand s answered) :
    Answers s (if c then faultRespond f faulty ptr val else Machine.respond answered ptr' val') := by
  split
  · exact (hfaulty.raiseFault f).emit _
  · exact hanswered.respond _ _

/-- Every command answers, refused, faulting or not (60_exceptions R205). -/
theorem exec_answers (h : exec i s = .next t) : Answers s t := by
  cases i with
  | init m0 =>
    rcases execInit_next h with rfl | rfl | ⟨hc, -, rfl⟩
    · exact .refuse _ s
    · exact .refuse _ s
    · exact (withinCommand_construct hc m0).respond _ _
  | push v =>
    rcases execPush_next h with rfl | ⟨-, -, u, hstore, rfl⟩
    · exact .refuse _ s
    · have hu := (storeMirrored_spec hstore).1.withinCommand
      exact .faultRespond_or_respond hu (hu.setWrite _)
  | pop =>
    rcases execPop_next h with rfl | ⟨-, -, -, rfl⟩
    · exact .refuse _ s
    · exact .faultRespond_or_respond (.refl s) ((WithinCommand.refl s).setRead _)
  | bulkw len data =>
    rcases execBulkw_next h with rfl | ⟨-, -, u, hstore, rfl⟩
    · exact .refuse _ s
    · have hu := (storeRun_frame hstore).1.withinCommand
      exact .faultRespond_or_respond (hu.setWrite _) (hu.setWrite _)
  | allocw maxLen =>
    rcases execAllocw_next h with rfl | ⟨-, -, rfl⟩
    · exact .refuse _ s
    · exact .faultRespond_or_respond (.refl s) ((WithinCommand.refl s).openWrite _)
  | commitw len =>
    rcases execCommitw_next h with rfl | ⟨-, -, -, u, hcopies, rfl⟩
    · exact .refuse _ s
    · exact (((commitCopies_spec hcopies).1.withinCommand.setWrite _).closeWrite).respond _ _
  | allocr maxLen =>
    rcases execAllocr_next h with rfl | ⟨-, -, rfl⟩
    · exact .refuse _ s
    · have hs := (WithinCommand.refl s).grantRead (s.readGrant maxLen)
      exact .faultRespond_or_respond hs hs
  | commitr len =>
    rcases execCommitr_next h with rfl | ⟨-, -, -, rfl⟩
    · exact .refuse _ s
    · exact (((WithinCommand.refl s).setRead _).closeRead).respond _ _
  | length => rcases execLength_next h with rfl | ⟨-, rfl⟩ <;> exact (WithinCommand.refl s).emit _
  | hasdata => rcases execHasdata_next h with rfl | ⟨-, rfl⟩ <;> exact (WithinCommand.refl s).emit _
  | geterr => rcases execGeterr_next h with rfl | ⟨-, rfl⟩ <;> exact (WithinCommand.refl s).emit _
  | clrerr =>
    rcases execClrerr_next h with rfl | ⟨-, rfl⟩
    · exact .refuse _ s
    · exact ((WithinCommand.refl s).raiseFault _).respond _ _

/-! ### The statements about transactions -/

section Transaction

variable {word : CommandWord} {payload : List Byte} {rest : List Request}

theorem step_of_command (hq : s.requests = .command word payload :: rest) :
    step s = runTransaction word payload { s with requests := rest } := by
  simp only [step, serveNext, hq, serve]

theorem runTransaction_of_decode (h : decode word payload = .ok i) (s : State) :
    runTransaction word payload s = exec i s := by
  rw [runTransaction, h]

/-- A transaction answers, whether it is a command or not (60_exceptions R203, R205). -/
theorem runTransaction_answers (h : runTransaction word payload s = .next t) : Answers s t := by
  unfold runTransaction at h
  split at h
  · injection h with h
    exact h ▸ .refuse _ s
  · exact exec_answers h

end Transaction

/-- Settles O7: with a transaction at the head of the list the step is that transaction's, decoded or refused. -/
theorem stepRunsTheDecodedCommand : Obligations.StepRunsTheDecodedCommand := by
  intro s word payload rest hq taken
  have hstep := step_of_command hq
  exact ⟨hstep, fun i hi => hstep.trans (runTransaction_of_decode hi taken),
    fun hnone => hstep.trans (runTransaction_refuses (decode_fails_of_no_command hnone) taken)⟩

/-- Settles O8: a transaction emits its word after its last change of the state, and up to there it has no way to the outputs
or to the environment's steps. -/
theorem oneResponsePerTransaction : Obligations.OneResponsePerTransaction := by
  intro s t word payload rest hq hstep
  rw [step_of_command hq] at hstep
  obtain ⟨u, response, hu, rfl⟩ := runTransaction_answers hstep
  exact ⟨response, congrArg (· ++ [response]) hu.responses, hu.requests, hu.spanReplies⟩

/-- Settles O9: the empty list is the first branch of `serveNext`. -/
theorem nothingHappensWithoutARequest : Obligations.NothingHappensWithoutARequest := by
  intro s hq
  simp only [step, serveNext, hq]

/-! ### What every step leaves alone -/

/-- What no step changes, and what no step but a reset does to a READY block. -/
structure KeepsConfiguration (s t : State) : Prop where
  totalSize : t.totalSize = s.totalSize
  powerUpFixed : t.powerUpFixed = s.powerUpFixed
  memory : s.MemoryInv → t.MemoryInv
  ready : s.configured = true → (∀ rest, s.requests ≠ .reset :: rest) → t.configured = true ∧ t.mirrorSize = s.mirrorSize

theorem Answers.keepsConfiguration {rest : List Request} (h : Answers { s with requests := rest } t) : KeepsConfiguration s t := by
  obtain ⟨u, word, hu, rfl⟩ := h
  exact ⟨hu.totalSize, hu.powerUpFixed, hu.memory, fun hc _ => hu.ready hc⟩

theorem step_keepsConfiguration (h : step s = .next t) : KeepsConfiguration s t := by
  rcases step_next h with ⟨-, rfl⟩ | ⟨word, payload, rest, i, -, -, hexec⟩ | ⟨word, payload, rest, e, -, -, rfl⟩ |
    ⟨p, b, rest, -, hwrite⟩ | ⟨p, rest, -, hread⟩ | ⟨rest, hq, rfl⟩
  · exact ⟨rfl, rfl, id, fun hc _ => ⟨hc, rfl⟩⟩
  · exact (exec_answers hexec).keepsConfiguration
  · exact (Answers.refuse .illegalCmd { s with requests := rest }).keepsConfiguration
  · rcases spanWrite_next hwrite with ⟨-, hp, rfl⟩ | ⟨-, rfl⟩
    · exact ⟨rfl, rfl, (storageOnly_setByte hp).inv, fun hc _ => ⟨hc, rfl⟩⟩
    · exact ⟨rfl, rfl, id, fun hc _ => ⟨hc, rfl⟩⟩
  · rcases spanRead_next hread with ⟨-, -, rfl⟩ | ⟨-, rfl⟩ <;> exact ⟨rfl, rfl, id, fun hc _ => ⟨hc, rfl⟩⟩
  · exact ⟨rfl, rfl, id, fun _ hreset => absurd hq (hreset rest)⟩

/-- Settles O41: every write is one of the byte writes that keep the canonical form. -/
theorem stepKeepsStorageCanonical : Obligations.StepKeepsStorageCanonical :=
  fun _ _ hmem hstep => (step_keepsConfiguration hstep).memory hmem

/-- Settles O47: INIT is refused in a READY block, and no other command writes the configuration. -/
theorem configurationIsFixedUntilReset : Obligations.ConfigurationIsFixedUntilReset := by
  intro s t hstep
  obtain ⟨htotal, hcontent, -, hready⟩ := step_keepsConfiguration hstep
  exact ⟨htotal, hcontent, hready⟩

end Sys2Proof.Machine
end

section
/-! SUPPORT. The write side and the read side of the block: which commands have a rule for each, and that the others leave the
bytes, the cursor and the span of that side alone (10_state R23, R35). -/

namespace Sys2Proof.Machine

variable {s t u : State} {i : Instr}

/-! ### The two sides -/

/-- The commands whose rule writes `w`, the write span or a byte. -/
def WritesWriteSide : Instr → Prop
  | .init _ | .push _ | .bulkw _ _ | .allocw _ | .commitw _ => True
  | _ => False

/-- The commands whose rule writes `r` or the read span. -/
def WritesReadSide : Instr → Prop
  | .init _ | .pop | .allocr _ | .commitr _ => True
  | _ => False

/-- `t` has the bytes, the write cursor and the write span of `s`. -/
structure KeepsWriteSide (s t : State) : Prop where
  byteAt : t.byteAt = s.byteAt
  writeIndex : t.writeIndex = s.writeIndex
  wsOpen : t.wsOpen = s.wsOpen
  wsLen : t.wsLen = s.wsLen

/-- `t` has the read cursor and the read span of `s`. -/
structure KeepsReadSide (s t : State) : Prop where
  readIndex : t.readIndex = s.readIndex
  rsOpen : t.rsOpen = s.rsOpen
  rsLen : t.rsLen = s.rsLen

theorem KeepsWriteSide.refl (s : State) : KeepsWriteSide s s := ⟨rfl, rfl, rfl, rfl⟩

theorem KeepsReadSide.refl (s : State) : KeepsReadSide s s := ⟨rfl, rfl, rfl⟩

theorem KeepsWriteSide.emit (h : KeepsWriteSide s u) (word : ResponseWord) : KeepsWriteSide s (u.emit word) := { h with }

theorem KeepsReadSide.emit (h : KeepsReadSide s u) (word : ResponseWord) : KeepsReadSide s (u.emit word) := { h with }

theorem KeepsWriteSide.raiseFault (h : KeepsWriteSide s u) (f : ErrorCode) : KeepsWriteSide s (u.raiseFault f) := { h with }

theorem KeepsReadSide.raiseFault (h : KeepsReadSide s u) (f : ErrorCode) : KeepsReadSide s (u.raiseFault f) := { h with }

theorem KeepsWriteSide.refuse (st : Status) (s : State) : KeepsWriteSide s (Machine.refuse st s) := (refl s).emit _

theorem KeepsReadSide.refuse (st : Status) (s : State) : KeepsReadSide s (Machine.refuse st s) := (refl s).emit _

section Ending

variable {c : Prop} [Decidable c] {f : ErrorCode} {faulty answered : State} {ptr val ptr' val' : Index}

theorem KeepsWriteSide.faultRespond_or_respond (hfaulty : KeepsWriteSide s faulty) (hanswered : KeepsWriteSide s answered) :
    KeepsWriteSide s (if c then faultRespond f faulty ptr val else respond answered ptr' val') := by
  split
  · exact (hfaulty.raiseFault f).emit _
  · exact hanswered.emit _

theorem KeepsReadSide.faultRespond_or_respond (hfaulty : KeepsReadSide s faulty) (hanswered : KeepsReadSide s answered) :
    KeepsReadSide s (if c then faultRespond f faulty ptr val else respond answered ptr' val') := by
  split
  · exact (hfaulty.raiseFault f).emit _
  · exact hanswered.emit _

end Ending

theorem KeepsWriteSide.setRead (h : KeepsWriteSide s u) (n : Nat) : KeepsWriteSide s (u.setRead n) := { h with }

theorem KeepsWriteSide.closeRead (h : KeepsWriteSide s u) : KeepsWriteSide s u.closeRead := { h with }

theorem KeepsWriteSide.grantRead (h : KeepsWriteSide s u) (g : Nat) : KeepsWriteSide s (u.grantRead g) := by
  unfold State.grantRead
  split
  · exact h
  · exact { h with }

theorem KeepsReadSide.setWrite (h : KeepsReadSide s u) (n : Nat) : KeepsReadSide s (u.setWrite n) := { h with }

theorem KeepsReadSide.openWrite (h : KeepsReadSide s u) (g : Nat) : KeepsReadSide s (u.openWrite g) := { h with }

theorem KeepsReadSide.closeWrite (h : KeepsReadSide s u) : KeepsReadSide s u.closeWrite := { h with }

theorem StorageOnly.keepsReadSide (so : StorageOnly s u) : KeepsReadSide s u := by
  obtain ⟨-, -, hopen, hlen⟩ := so.spans
  exact ⟨by rw [so.fields], hopen, hlen⟩

/-! ### Which command leaves which side alone -/

/-- A command without a rule for either side leaves both alone. -/
theorem exec_keepsBothSides (hw : ¬ WritesWriteSide i) (hr : ¬ WritesReadSide i) (h : exec i s = .next t) :
    KeepsWriteSide s t ∧ KeepsReadSide s t := by
  cases i with
  | init | push | bulkw | allocw | commitw => exact absurd trivial hw
  | pop | allocr | commitr => exact absurd trivial hr
  | length =>
    rcases execLength_next h with rfl | ⟨-, rfl⟩ <;> exact ⟨(KeepsWriteSide.refl s).emit _, (KeepsReadSide.refl s).emit _⟩
  | hasdata =>
    rcases execHasdata_next h with rfl | ⟨-, rfl⟩ <;> exact ⟨(KeepsWriteSide.refl s).emit _, (KeepsReadSide.refl s).emit _⟩
  | geterr =>
    rcases execGeterr_next h with rfl | ⟨-, rfl⟩ <;> exact ⟨(KeepsWriteSide.refl s).emit _, (KeepsReadSide.refl s).emit _⟩
  | clrerr =>
    rcases execClrerr_next h with rfl | ⟨-, rfl⟩
    · exact ⟨.refuse _ s, .refuse _ s⟩
    · exact ⟨((KeepsWriteSide.refl s).raiseFault _).emit _, ((KeepsReadSide.refl s).raiseFault _).emit _⟩

theorem exec_keepsWriteSide (hi : ¬ WritesWriteSide i) (h : exec i s = .next t) : KeepsWriteSide s t := by
  cases i with
  | pop =>
    rcases execPop_next h with rfl | ⟨-, -, -, rfl⟩
    · exact .refuse _ s
    · exact .faultRespond_or_respond (.refl s) ((KeepsWriteSide.refl s).setRead _)
  | allocr maxLen =>
    rcases execAllocr_next h with rfl | ⟨-, -, rfl⟩
    · exact .refuse _ s
    · have hs := (KeepsWriteSide.refl s).grantRead (s.readGrant maxLen)
      exact .faultRespond_or_respond hs hs
  | commitr len =>
    rcases execCommitr_next h with rfl | ⟨-, -, -, rfl⟩
    · exact .refuse _ s
    · exact (((KeepsWriteSide.refl s).setRead _).closeRead).emit _
  | init | push | bulkw | allocw | commitw => exact absurd trivial hi
  | length | hasdata | geterr | clrerr => exact (exec_keepsBothSides hi id h).1

theorem exec_keepsReadSide (hi : ¬ WritesReadSide i) (h : exec i s = .next t) : KeepsReadSide s t := by
  cases i with
  | push v =>
    rcases execPush_next h with rfl | ⟨-, -, u, hstore, rfl⟩
    · exact .refuse _ s
    · have hu := (storeMirrored_spec hstore).1.keepsReadSide
      exact .faultRespond_or_respond hu (hu.setWrite _)
  | bulkw len data =>
    rcases execBulkw_next h with rfl | ⟨-, -, u, hstore, rfl⟩
    · exact .refuse _ s
    · have hu := (storeRun_frame hstore).1.keepsReadSide
      exact .faultRespond_or_respond (hu.setWrite _) (hu.setWrite _)
  | allocw maxLen =>
    rcases execAllocw_next h with rfl | ⟨-, -, rfl⟩
    · exact .refuse _ s
    · exact .faultRespond_or_respond (.refl s) ((KeepsReadSide.refl s).openWrite _)
  | commitw len =>
    rcases execCommitw_next h with rfl | ⟨-, -, -, u, hcopies, rfl⟩
    · exact .refuse _ s
    · exact (((commitCopies_spec hcopies).1.keepsReadSide.setWrite _).closeWrite).emit _
  | init | pop | allocr | commitr => exact absurd trivial hi
  | length | hasdata | geterr | clrerr => exact (exec_keepsBothSides id hi h).2

/-! ### The cursors -/

/-- ALLOCW and ALLOCR write their side's span, not its cursor (43_write_span R148, 44_read_span R168). -/
theorem execAllocw_writeIndex {maxLen : Index} (h : execAllocw maxLen s = .next t) : t.writeIndex = s.writeIndex := by
  rcases execAllocw_next h with rfl | ⟨-, -, rfl⟩
  · rfl
  · unfold allocwResult
    split <;> rfl

theorem execAllocr_readIndex {maxLen : Index} (h : execAllocr maxLen s = .next t) : t.readIndex = s.readIndex := by
  rcases execAllocr_next h with rfl | ⟨-, -, rfl⟩
  · rfl
  · have hgrant : ∀ g, (s.grantRead g).readIndex = s.readIndex := fun g => by
      unfold State.grantRead
      split <;> rfl
    unfold allocrResult
    dsimp only
    split <;> exact hgrant _

/-- Settles O48: a command of the other side, or of none, leaves the cursor's whole side alone, and the command that opens the
side's span leaves its cursor alone. -/
theorem cursorsHaveTheirOwnWriters : Obligations.CursorsHaveTheirOwnWriters := by
  intro i s t hexec hinit
  refine ⟨fun hpush hbulkw hcommitw => ?_, fun hpop hcommitr => ?_⟩
  · cases i with
    | init m0 => exact absurd rfl (hinit m0)
    | push v => exact absurd rfl (hpush v)
    | bulkw len data => exact absurd rfl (hbulkw len data)
    | commitw len => exact absurd rfl (hcommitw len)
    | allocw maxLen => exact execAllocw_writeIndex hexec
    | _ => exact (exec_keepsWriteSide id hexec).writeIndex
  · cases i with
    | init m0 => exact absurd rfl (hinit m0)
    | pop => exact absurd rfl hpop
    | commitr len => exact absurd rfl (hcommitr len)
    | allocr maxLen => exact execAllocr_readIndex hexec
    | _ => exact (exec_keepsReadSide id hexec).readIndex

end Sys2Proof.Machine
end

section
/-! SUPPORT. The range invariant of the registers (10_state R31, R40) without the storage: one rule for each write of a cursor or
of a span, then every command, then every step. -/

namespace Sys2Proof.Machine

variable {s t u : State} {i : Instr}

/-! ### The state after power-up reset -/

/-- Settles O12: the state written out in `State.reset`. -/
theorem powerUpResetState : Obligations.PowerUpResetState :=
  ⟨rfl, ⟨rfl, rfl, rfl, rfl, rfl, rfl, rfl, rfl⟩, fun _ => rfl⟩

/-- A block that is UNCONFIGURED with cleared registers and nothing listed in its storage meets the whole invariant. -/
theorem inv_of_cleared (hc : s.configured = false) (hcleared : s.Cleared) (hempty : s.storage = []) : s.Inv :=
  ⟨⟨fun _ => hcleared, fun hready => absurd (hready.symm.trans hc) nofun⟩,
    by rw [State.MemoryInv, hempty]; exact ⟨Memory.wf_nil, nofun⟩, fun hready => absurd (hready.symm.trans hc) nofun⟩

/-- Settles O39: the registers are cleared and no address is listed; there are no live bytes. -/
theorem resetStateSatisfiesTheInvariant : Obligations.ResetStateSatisfiesTheInvariant := by
  obtain ⟨hc, hcleared, -⟩ := powerUpResetState
  exact inv_of_cleared hc hcleared rfl

/-! ### The grants -/

/-- The bounds of a grant, on either side (43_write_span R149, 44_read_span R169). -/
theorem grantLength_bounds {cap m total base n avail : Nat} (hm : 1 ≤ m) (htotal : cap + m = total) (hbase : base ≤ cap - 1)
    (hcap : 1 ≤ cap) :
    (n ≤ m → grantLength cap m base n avail = min n avail) ∧ grantLength cap m base n avail ≤ avail ∧
      base + grantLength cap m base n avail ≤ total - 1 ∧
      (base + grantLength cap m base n avail > cap → grantLength cap m base n avail ≤ m) := by
  unfold grantLength
  dsimp only
  split <;> omega

/-- Settles O23: the bounds of a grant at `w` and at `r`. -/
theorem grantsAreContiguousAndBounded : Obligations.GrantsAreContiguousAndBounded := by
  intro maxLen s hr
  obtain ⟨hwshort, hwfit, hwend, hwcut⟩ :=
    grantLength_bounds (n := maxLen.toNat) (avail := s.free) hr.m_pos hr.cap_add_m hr.write_le hr.cap_pos
  obtain ⟨hrshort, hrfit, hrend, hrcut⟩ :=
    grantLength_bounds (n := maxLen.toNat) (avail := s.dist) hr.m_pos hr.cap_add_m hr.read_le hr.cap_pos
  exact ⟨fun hshort => ⟨hwshort hshort, hrshort hshort⟩, hwfit, hrfit, hwend, hrend, hwcut, hrcut⟩

/-! ### The images of a write span -/

/-- One place past a free index is not `r`: only the slot just before `r` has `r` as its next index (10_state R32). -/
theorem State.InRange.nextIndex_advIndex_write_ne (h : s.InRange) {k : Nat} (hk : k < s.free) :
    nextIndex s.cap (advIndex s.cap s.w k) ≠ s.r := by
  have hsum := h.dist_add_free
  rw [← advIndex_succ h.write_le (by omega), h.advIndex_write hk]
  intro heq
  have := advIndex_injective (by omega) (Nat.zero_le _) (heq.trans (advIndex_zero h.read_le).symm)
  omega

/-- Settles O36: the images of the span are the first `ws_len` free indices, and `w` itself is the first. -/
theorem writeSpanImagesAreFree : Obligations.WriteSpanImagesAreFree := by
  intro s _ hr
  refine ⟨fun hlive => ?_, fun hopen j hj => ?_⟩
  · exact hr.live_ne_advIndex_write hlive (Nat.zero_le _) (advIndex_zero hr.write_le).symm
  · obtain ⟨-, hspan, -⟩ := State.inRange_iff.1 hr
    obtain ⟨-, hfit, -⟩ := hspan.2 hopen
    exact ⟨rfl, fun hlive => hr.live_ne_advIndex_write hlive (by omega) rfl, hr.nextIndex_advIndex_write_ne (by omega)⟩

/-! ### The register writes of a READY block -/

theorem State.InRange.setWrite (h : s.InRange) (hidle : s.wsOpen = false) {n : Nat} (hn : n ≤ s.free) :
    (s.setWrite (advIndex s.cap s.w n)).InRange := by
  obtain ⟨⟨hm, hhalf, -, hread⟩, hwspan, hrspan⟩ := State.inRange_iff.1 h
  have hsum := h.dist_add_free
  have hw : (s.setWrite (advIndex s.cap s.w n)).w = advIndex s.cap s.w n := h.toIndex_advIndex h.write_le (by omega)
  have hlt := h.advIndex_write_lt hn
  have hll : s.ll = s.cap - 1 := rfl
  have hdist : (s.setWrite (advIndex s.cap s.w n)).dist = s.dist + n := by
    rw [State.dist, hw]
    exact distIndex_advIndex_write h.read_le h.write_le hn
  refine State.inRange_iff.2 ⟨⟨hm, hhalf, by rw [hw, State.setWrite_ll]; omega, hread⟩, ?_, ?_⟩
  · rw [State.WriteSpanInRange, State.setWrite_wsOpen, State.setWrite_wsLen, hidle, hwspan.1 hidle]
    exact spanInRange_closed
  · exact hrspan.mono (by omega)

theorem State.InRange.setRead (h : s.InRange) (hidle : s.rsOpen = false) {n : Nat} (hn : n ≤ s.dist) :
    (s.setRead (advIndex s.cap s.r n)).InRange := by
  obtain ⟨⟨hm, hhalf, hwrite, -⟩, hwspan, hrspan⟩ := State.inRange_iff.1 h
  have hsum := h.dist_add_free
  have hlt : advIndex s.cap s.r n < s.cap := advIndex_lt h.cap_pos h.read_le (by omega)
  have hr : (s.setRead (advIndex s.cap s.r n)).r = advIndex s.cap s.r n := h.toIndex_advIndex h.read_le (by omega)
  have hll : s.ll = s.cap - 1 := rfl
  have hdist : (s.setRead (advIndex s.cap s.r n)).dist = s.dist - n := by
    rw [State.dist, hr]
    exact distIndex_advIndex_read h.read_le h.write_le hn
  have hfree : (s.setRead (advIndex s.cap s.r n)).free = s.cap - 1 - (s.dist - n) := by
    rw [← hdist]; rfl
  refine State.inRange_iff.2 ⟨⟨hm, hhalf, hwrite, by rw [hr, State.setRead_ll]; omega⟩, ?_, ?_⟩
  · exact hwspan.mono (by omega)
  · rw [State.ReadSpanInRange, State.setRead_rsOpen, State.setRead_rsLen, hidle, hrspan.1 hidle]
    exact spanInRange_closed

theorem State.InRange.closeWrite (h : s.InRange) : s.closeWrite.InRange := by
  obtain ⟨hcursors, -, hrspan⟩ := State.inRange_iff.1 h
  exact State.inRange_iff.2 ⟨hcursors, spanInRange_closed, hrspan⟩

theorem State.InRange.closeRead (h : s.InRange) : s.closeRead.InRange := by
  obtain ⟨hcursors, hwspan, -⟩ := State.inRange_iff.1 h
  exact State.inRange_iff.2 ⟨hcursors, hwspan, spanInRange_closed⟩

theorem State.InRange.openWrite (h : s.InRange) {maxLen : Index} (hg : s.writeGrant maxLen ≠ 0) :
    (s.openWrite (s.writeGrant maxLen)).InRange := by
  obtain ⟨hcursors, -, hrspan⟩ := State.inRange_iff.1 h
  exact State.inRange_iff.2
    ⟨hcursors, spanInRange_grant h.m_pos h.cap_add_m s.total_lt h.write_le (Nat.sub_le _ _) hg, hrspan⟩

theorem State.InRange.grantRead (h : s.InRange) (maxLen : Index) : (s.grantRead (s.readGrant maxLen)).InRange := by
  obtain ⟨hcursors, hwspan, -⟩ := State.inRange_iff.1 h
  unfold State.grantRead
  split
  · exact h
  · next hg =>
    exact State.inRange_iff.2
      ⟨hcursors, hwspan, spanInRange_grant h.m_pos h.cap_add_m s.total_lt h.read_le (distIndex_le h.write_le) hg⟩

theorem State.inRange_construct {m0 : Index} (hm0 : s.badMirrorSize m0 = false) : (s.construct m0).InRange := by
  have hgood := mt State.badMirrorSize_iff.2 (Bool.eq_false_iff.1 hm0)
  have hcursors : 1 ≤ m0.toNat ∧ 2 * m0.toNat ≤ s.total := by omega
  exact State.inRange_iff.2
    ⟨⟨hcursors.1, hcursors.2, Nat.zero_le _, Nat.zero_le _⟩, spanInRange_closed, spanInRange_closed⟩

/-- Neither a response word nor `err` is part of the ranges. -/
theorem State.InRange.faultRespond_or_respond {c : Prop} [Decidable c] {f : ErrorCode} {faulty answered : State}
    {ptr val ptr' val' : Index} (hfaulty : c → faulty.InRange) (hanswered : ¬ c → answered.InRange) :
    State.InRange (if c then faultRespond f faulty ptr val else respond answered ptr' val') := by
  split
  · next hcond => exact hfaulty hcond
  · next hcond => exact hanswered hcond

/-! ### The commands that move a cursor -/

theorem State.InRange.free_pos (hr : s.InRange) (h : ¬ s.pushOverflows = true) : 1 ≤ s.free := by
  rw [pushOverflows_iff hr] at h
  omega

theorem execPush_inRange {v : Byte} (hr : s.InRange) (h : execPush v s = .next t) : t.InRange := by
  rcases execPush_next h with rfl | ⟨-, hidle, u, hstore, rfl⟩
  · exact hr
  · have so := (storeMirrored_spec hstore).1
    have hu := so.inRange hr
    refine .faultRespond_or_respond (fun _ => hu) fun hroom => ?_
    have hfree := hr.free_pos hroom
    have hsum := hr.dist_add_free
    rw [nextIndex_eq_advIndex hu.write_le (by rw [so.cap]; omega)]
    exact hu.setWrite (so.spans.1.trans hidle) (by rw [so.free]; exact hfree)

theorem execBulkw_inRange {len : Index} {data : List Byte} (hr : s.InRange) (h : execBulkw len data s = .next t) :
    t.InRange := by
  rcases execBulkw_next h with rfl | ⟨-, hidle, u, hstore, rfl⟩
  · exact hr
  · have so := (storeRun_frame hstore).1
    have hfit : s.bulkCount len ≤ u.free := so.free ▸ Nat.min_le_right _ _
    have hmoved := (so.inRange hr).setWrite (so.spans.1.trans hidle) hfit
    exact .faultRespond_or_respond (fun _ => hmoved) fun _ => hmoved

theorem execCommitw_inRange {len : Index} (hr : s.InRange) (h : execCommitw len s = .next t) : t.InRange := by
  rcases execCommitw_next h with rfl | ⟨-, hopen, hlen, u, hcopies, rfl⟩
  · exact hr
  · have so := (commitCopies_spec hcopies).1
    obtain ⟨-, hspan, -⟩ := State.inRange_iff.1 hr
    obtain ⟨-, hgrant, -⟩ := hspan.2 hopen
    have hfit : len.toNat ≤ u.closeWrite.free := by rw [State.closeWrite_free, so.free]; omega
    rw [commitwResult, committedEnd_eq]
    exact (so.inRange hr).closeWrite.setWrite rfl hfit

theorem execPop_inRange (hr : s.InRange) (h : execPop s = .next t) : t.InRange := by
  rcases execPop_next h with rfl | ⟨-, hidle, -, rfl⟩
  · exact hr
  · refine .faultRespond_or_respond (fun _ => hr) fun hdata => ?_
    have hne := mt (distIndex_eq_zero hr.read_le hr.write_le).1 (mt State.isEmpty_iff.2 hdata)
    have hdist : 1 ≤ s.dist := Nat.one_le_iff_ne_zero.2 hne
    have hsum := hr.dist_add_free
    rw [nextIndex_eq_advIndex hr.read_le (by omega)]
    exact hr.setRead hidle hdist

theorem execCommitr_inRange {len : Index} (hr : s.InRange) (h : execCommitr len s = .next t) : t.InRange := by
  rcases execCommitr_next h with rfl | ⟨-, hopen, hlen, rfl⟩
  · exact hr
  · obtain ⟨-, -, hspan⟩ := State.inRange_iff.1 hr
    obtain ⟨-, hgrant, -⟩ := hspan.2 hopen
    rw [releasedTo_eq]
    exact hr.closeRead.setRead rfl (hlen.trans hgrant)

/-- Every command keeps a READY block in range (10_state R31). -/
theorem exec_inRange (hr : s.InRange) (hc : s.configured = true) (h : exec i s = .next t) : t.InRange := by
  cases i with
  | init m0 =>
    rcases execInit_next h with rfl | rfl | ⟨hunconfigured, -⟩
    · exact hr
    · exact hr
    · exact absurd (hc.symm.trans hunconfigured) nofun
  | push v => exact execPush_inRange hr h
  | pop => exact execPop_inRange hr h
  | bulkw len data => exact execBulkw_inRange hr h
  | allocw maxLen =>
    rcases execAllocw_next h with rfl | ⟨-, -, rfl⟩
    · exact hr
    · exact .faultRespond_or_respond (fun _ => hr) fun hg => hr.openWrite (mt beq_iff_eq.2 hg)
  | commitw len => exact execCommitw_inRange hr h
  | allocr maxLen =>
    rcases execAllocr_next h with rfl | ⟨-, -, rfl⟩
    · exact hr
    · exact .faultRespond_or_respond (fun _ => hr.grantRead maxLen) fun _ => hr.grantRead maxLen
  | commitr len => exact execCommitr_inRange hr h
  | length => rcases execLength_next h with rfl | ⟨-, rfl⟩ <;> exact hr
  | hasdata => rcases execHasdata_next h with rfl | ⟨-, rfl⟩ <;> exact hr
  | geterr => rcases execGeterr_next h with rfl | ⟨-, rfl⟩ <;> exact hr
  | clrerr => rcases execClrerr_next h with rfl | ⟨-, rfl⟩ <;> exact hr

/-! ### Every command, every step -/

theorem Answers.configured (h : Answers s t) (hc : s.configured = true) : t.configured = true := by
  obtain ⟨u, word, hu, rfl⟩ := h
  exact (hu.ready hc).1

theorem State.registerInv_of_inRange (hc : s.configured = true) (hr : s.InRange) : s.RegisterInv :=
  ⟨fun hunconfigured => absurd (hc.symm.trans hunconfigured) nofun, fun _ => hr⟩

/-- An UNCONFIGURED block refuses every command, or INIT constructs in range (60_exceptions R201). -/
theorem exec_registerInv_of_unconfigured (hs : s.RegisterInv) (hc : s.configured = false) (h : exec i s = .next t) :
    t.RegisterInv := by
  by_cases hi : ∃ m0, i = .init m0
  · obtain ⟨m0, rfl⟩ := hi
    rcases execInit_next h with rfl | rfl | ⟨-, hm0, rfl⟩
    · exact hs
    · exact hs
    · exact State.registerInv_of_inRange (s := respond (s.construct m0) 0 0) rfl (State.inRange_construct hm0)
  · have hrefused := (lifecycleRefusals i s).1 hc fun m0 hm0 => hi ⟨m0, hm0⟩
    obtain rfl := Host.Outcome.next.inj (h.symm.trans hrefused)
    exact hs

theorem exec_registerInv (hs : s.RegisterInv) (h : exec i s = .next t) : t.RegisterInv := by
  cases hc : s.configured with
  | false => exact exec_registerInv_of_unconfigured hs hc h
  | true => exact State.registerInv_of_inRange ((exec_answers h).configured hc) (exec_inRange (hs.2 hc) hc h)

theorem hardwareReset_registerInv (s : State) : (hardwareReset s).RegisterInv :=
  ⟨fun _ => ⟨rfl, rfl, rfl, rfl, rfl, rfl, rfl, rfl⟩, nofun⟩

/-- Settles O40: the commands keep the ranges, the span port writes no register, and a reset clears them all. -/
theorem stepKeepsRegistersInRange : Obligations.StepKeepsRegistersInRange := by
  intro s t hs hstep
  rcases step_next hstep with ⟨-, rfl⟩ | ⟨word, payload, rest, i, -, -, hexec⟩ | ⟨word, payload, rest, e, -, -, rfl⟩ |
    ⟨p, b, rest, -, hwrite⟩ | ⟨p, rest, -, hread⟩ | ⟨rest, -, rfl⟩
  · exact hs
  · exact exec_registerInv (s := { s with requests := rest }) hs hexec
  · exact hs
  · rcases spanWrite_next hwrite with ⟨-, -, rfl⟩ | ⟨-, rfl⟩ <;> exact hs
  · rcases spanRead_next hread with ⟨-, -, rfl⟩ | ⟨-, rfl⟩ <;> exact hs
  · exact hardwareReset_registerInv _

end Sys2Proof.Machine
end

section
/-! SUPPORT. Every command and every step of a block within the invariant completes, and every step keeps the invariant; so both
hold along every run from power-up (70_reset R246, 10_state R31, R33(a), R37). -/

namespace Sys2Proof.Machine

variable {s t : State} {i : Instr}

/-! ### Completion -/

/-- A command completes: refused by its lifecycle or its span condition, or answered. -/
theorem exec_completes (hs : s.RegisterInv) (i : Instr) : ∃ t, exec i s = .next t := by
  by_cases hi : ∃ m0, i = .init m0
  · obtain ⟨m0, rfl⟩ := hi
    exact ⟨initResult m0 s, rfl⟩
  · have hi : ∀ m0, i ≠ .init m0 := fun m0 hm0 => hi ⟨m0, hm0⟩
    cases hc : s.configured with
    | false => exact ⟨_, (lifecycleRefusals i s).1 hc hi⟩
    | true =>
      obtain ⟨hrefused, hanswered⟩ := spanProtocolRefusals i s hc (hs.2 hc) hi
      rcases (Classical.em _).imp hrefused hanswered with hexec | ⟨t, -, -, -, hexec, -⟩
      · exact ⟨_, hexec⟩
      · exact ⟨t, hexec⟩

/-- Settles O11: the command completes, and what completes has answered. -/
theorem everyCommandCompletes : Obligations.EveryCommandCompletes := by
  intro i s hs
  obtain ⟨t, hexec⟩ := exec_completes hs i
  obtain ⟨u, response, hu, rfl⟩ := exec_answers hexec
  exact ⟨_, response, hexec, congrArg (· ++ [response]) hu.responses⟩

theorem runTransaction_completes (hs : s.RegisterInv) (word : CommandWord) (payload : List Byte) :
    ∃ t, runTransaction word payload s = .next t := by
  unfold runTransaction
  split
  · exact ⟨_, rfl⟩
  · exact exec_completes hs _

/-- An accepted span-port request finds its byte inside the storage (10_state R31, 20_memory R50). -/
theorem spanWrite_completes (hs : s.RegisterInv) (p : Index) (b : Byte) : ∃ t, spanWrite p b s = .next t := by
  by_cases hin : s.inWriteSpan p.toNat = true
  · have hr := hs.2 (State.inWriteSpan_iff.1 hin).1
    exact ⟨_, spanWrite_of_inWriteSpan hin (hr.lt_total_of_inWriteSpan hin)⟩
  · exact ⟨_, spanWrite_of_not_inWriteSpan hin⟩

theorem spanRead_completes (hs : s.RegisterInv) (p : Index) : ∃ t, spanRead p s = .next t := by
  by_cases hin : s.inReadSpan p.toNat = true
  · have hr := hs.2 (State.inReadSpan_iff.1 hin).1
    exact ⟨_, spanRead_of_inReadSpan hin (hr.lt_total_of_inReadSpan hin)⟩
  · exact ⟨_, spanRead_of_not_inReadSpan hin⟩

theorem serve_completes (hs : s.RegisterInv) (q : Request) : ∃ t, serve q s = .next t := by
  cases q with
  | command word payload => exact runTransaction_completes hs word payload
  | spanWr p b => exact spanWrite_completes hs p b
  | spanRd p => exact spanRead_completes hs p
  | reset => exact ⟨_, rfl⟩

/-- Settles O10: each kind of request completes, and where there is none the step is done at once. -/
theorem everyStepCompletes : Obligations.EveryStepCompletes := by
  rintro s ⟨hs, -⟩
  unfold step serveNext
  split
  · exact ⟨s, rfl⟩
  · next q rest _ => exact serve_completes (s := { s with requests := rest }) hs q

/-! ### The invariant -/

/-- A reset drops the live bytes and keeps the storage (70_reset R225, R226). -/
theorem hardwareReset_inv (hmem : s.MemoryInv) : (hardwareReset s).Inv :=
  ⟨hardwareReset_registerInv s, hmem, nofun⟩

/-- Settles O42: a step that is no reset moves the ring as `step_conserves` says; after a reset there is no ring. -/
theorem stepKeepsLiveMirror : Obligations.StepKeepsLiveMirror := by
  intro s t hs hstep
  by_cases hreset : ∃ rest, s.requests = .reset :: rest
  · obtain ⟨rest, hq⟩ := hreset
    obtain rfl := Host.Outcome.next.inj (hstep.symm.trans (step_of_reset hq))
    exact hardwareReset_inv (s := { s with requests := rest }) hs.memory
  · exact (step_conserves hs (fun rest hq => hreset ⟨rest, hq⟩) hstep).inv

/-- Settles O45: the conservation by one step. -/
theorem stepConservesTheByteStream : Obligations.StepConservesTheByteStream :=
  fun _ _ hs hreset hstep => (step_conserves hs hreset hstep).stream

/-! ### The run -/

theorem run_succ_of_step {n : Nat} (h : step s = .next t) : Sys2Proof.core.run (n + 1) s = Sys2Proof.core.run n t := by
  have hcore : Sys2Proof.core.step s = .next t := h
  simp only [Host.Core.run, hcore]

/-- What holds of one step within the invariant holds of every run from there: it completes within the invariant. -/
theorem run_completes_inv (n : Nat) (hs : s.Inv) : ∃ t : State, Sys2Proof.core.run n s = .next t ∧ t.Inv := by
  induction n generalizing s with
  | zero => exact ⟨s, rfl, hs⟩
  | succ n ih =>
    obtain ⟨u, hstep⟩ := everyStepCompletes s hs
    obtain ⟨t, hrun, ht⟩ := ih (stepKeepsLiveMirror s u hs hstep)
    exact ⟨t, (run_succ_of_step hstep).trans hrun, ht⟩

/-- Settles O43: the state after power-up is cleared whatever the size and the content of its storage. -/
theorem invariantHoldsInEveryRun : Obligations.InvariantHoldsInEveryRun :=
  fun _ _ _ n => run_completes_inv n (inv_of_cleared rfl ⟨rfl, rfl, rfl, rfl, rfl, rfl, rfl, rfl⟩ rfl)

end Sys2Proof.Machine
end

section
/-! SUPPORT. What a step does to an outstanding write span (20_memory R63, 43_write_span R148), and that head and mirror region stay
equal outside it while every span is committed whole (10_state R33(b)). -/

namespace Sys2Proof.Machine

variable {s t u : State} {i : Instr} {inp : List Byte}

/-! ### The effect of a command on the write span -/

/-- The command from `s` to `t` that accepts `inp` writes no byte of the write span; where it leaves the span open, it moves
neither end of it and accepts nothing. -/
structure LeavesWriteSpan (s t : State) (inp : List Byte) : Prop where
  bytes : ∀ p, s.inWriteSpan p = true → t.byteAt p = s.byteAt p
  span : t.wsOpen = true → t.writeIndex = s.writeIndex ∧ t.wsLen = s.wsLen ∧ inp = []

theorem KeepsWriteSide.leavesWriteSpan (h : KeepsWriteSide s t) (hinp : inp = []) : LeavesWriteSpan s t inp :=
  ⟨fun p _ => congrFun h.byteAt p, fun _ => ⟨h.writeIndex, h.wsLen, hinp⟩⟩

/-- The copies of COMMITW take their bytes from the span and put none there (43_write_span R151). -/
theorem commitCopies_inWriteSpan {len p : Nat} (hr : s.InRange) (hopen : s.wsOpen = true) (hlen : len ≤ s.wsLen.toNat)
    (h : commitCopies len s = .ok u) (hp : s.inWriteSpan p = true) : u.byteAt p = s.byteAt p := by
  obtain ⟨-, hbytes⟩ := commitCopies_spec h
  obtain ⟨-, hspan, -⟩ := State.inRange_iff.1 hr
  obtain ⟨-, hfit, -⟩ := hspan.2 hopen
  obtain ⟨-, -, hlow, hhigh⟩ := State.inWriteSpan_iff.1 hp
  have hsum := hr.dist_add_free
  have hcap := hr.cap_pos
  rw [hbytes hr hopen hlen p, if_neg (by omega), if_neg (by omega)]

/-- COMMITW accepts only where it closes the span (43_write_span R150). -/
theorem execCommitw_leavesWriteSpan {len : Index} (hr : s.InRange) (h : execCommitw len s = .next t) :
    LeavesWriteSpan s t (s.acceptedBy (.commitw len)) := by
  rcases spanGuarded_next h with ⟨hguard, rfl⟩ | ⟨-, hopen, hlen, hbody⟩
  · exact (KeepsWriteSide.refuse _ s).leavesWriteSpan (by simp only [State.acceptedBy, hguard]; rfl)
  · split at hbody
    · cases hbody
    · next u hcopies =>
      injection hbody with hbody
      subst hbody
      exact ⟨fun p hp => commitCopies_inWriteSpan (u := u) hr hopen hlen hcopies hp, nofun⟩

/-- PUSH, BULKW and ALLOCW are refused while a write span is outstanding (43_write_span R148). -/
theorem exec_leavesWriteSpan (hr : s.InRange) (hc : s.configured = true) (hopen : s.wsOpen = true)
    (h : exec i s = .next t) : LeavesWriteSpan s t (s.acceptedBy i) := by
  have hbusy : ¬ s.wsOpen = false := by simp [hopen]
  cases i with
  | init m0 =>
    obtain rfl := Host.Outcome.next.inj (h.symm.trans (execInit_of_configured hc))
    exact (KeepsWriteSide.refuse _ s).leavesWriteSpan rfl
  | push v =>
    rcases execPush_next h with rfl | ⟨-, hidle, -⟩
    · exact (KeepsWriteSide.refuse _ s).leavesWriteSpan (by simp [State.acceptedBy, hopen])
    · exact absurd hidle hbusy
  | bulkw len data =>
    rcases execBulkw_next h with rfl | ⟨-, hidle, -⟩
    · exact (KeepsWriteSide.refuse _ s).leavesWriteSpan (by simp [State.acceptedBy, hopen])
    · exact absurd hidle hbusy
  | allocw maxLen =>
    rcases execAllocw_next h with rfl | ⟨-, hidle, -⟩
    · exact (KeepsWriteSide.refuse _ s).leavesWriteSpan rfl
    · exact absurd hidle hbusy
  | commitw len => exact execCommitw_leavesWriteSpan hr h
  | _ => exact (exec_keepsWriteSide id h).leavesWriteSpan rfl

/-! ### The effect of a step on the write span -/

/-- A step from a block in range with a write span open: only an accepted SPAN_WR writes a byte of the span, and a step that
leaves the span open moves neither end of it and accepts nothing; a reset closes it. -/
theorem step_leavesWriteSpan (hr : s.InRange) (hc : s.configured = true) (hopen : s.wsOpen = true) (h : step s = .next t) :
    ((∀ q b rest, s.requests ≠ .spanWr q b :: rest) → ∀ p, s.inWriteSpan p = true → t.byteAt p = s.byteAt p) ∧
      (t.wsOpen = true → t.writeIndex = s.writeIndex ∧ t.wsLen = s.wsLen ∧ s.acceptedNow = []) := by
  rcases step_next h with ⟨hq, rfl⟩ | ⟨word, payload, rest, i, hq, hdec, hexec⟩ | ⟨word, payload, rest, e, hq, hdec, rfl⟩ |
    ⟨p, b, rest, hq, hwrite⟩ | ⟨p, rest, hq, hread⟩ | ⟨rest, -, rfl⟩
  · have hnone := (State.streamsNow_of_no_command (s := t) (by simp [State.nextCommand, hq])).2
    exact ⟨fun _ _ _ => rfl, fun _ => ⟨rfl, rfl, hnone⟩⟩
  · rw [State.acceptedNow_of_nextCommand (State.nextCommand_of_decode hq hdec)]
    obtain ⟨hbytes, hspan⟩ := exec_leavesWriteSpan (s := { s with requests := rest }) hr hc hopen hexec
    exact ⟨fun _ => hbytes, hspan⟩
  · have hnone := (State.streamsNow_of_no_command (s := s) (by simp [State.nextCommand, hq, hdec, Except.toOption])).2
    exact ⟨fun _ _ _ => rfl, fun _ => ⟨rfl, rfl, hnone⟩⟩
  · have hnone := (State.streamsNow_of_no_command (s := s) (by simp [State.nextCommand, hq])).2
    refine ⟨fun hother => absurd hq (hother p b rest), fun _ => ?_⟩
    rcases spanWrite_next hwrite with ⟨-, -, rfl⟩ | ⟨-, rfl⟩ <;> exact ⟨rfl, rfl, hnone⟩
  · have hnone := (State.streamsNow_of_no_command (s := s) (by simp [State.nextCommand, hq])).2
    rcases spanRead_next hread with ⟨-, -, rfl⟩ | ⟨-, rfl⟩ <;>
      exact ⟨fun _ _ _ => rfl, fun _ => ⟨rfl, rfl, hnone⟩⟩
  · exact ⟨fun _ _ _ => rfl, nofun⟩

theorem State.cap_congr (htotal : t.totalSize = s.totalSize) (hm : t.mirrorSize = s.mirrorSize) : t.cap = s.cap := by
  simp only [State.cap, State.total, State.m, htotal, hm]

theorem State.bl_congr (hm : t.mirrorSize = s.mirrorSize) : t.bl = s.bl := by
  simp only [State.bl, State.m, hm]

/-- A step of a READY block that accepts nothing and is no reset does not shrink the free space: by conservation the live bytes
before it are what it delivers and those after it (10_state R37). -/
theorem free_le_of_accepts_nothing (hs : s.Inv) (hc : s.configured = true) (hreset : ∀ rest, s.requests ≠ .reset :: rest)
    (hinp : s.acceptedNow = []) (h : step s = .next t) : s.free ≤ t.free := by
  obtain ⟨htotal, -, -, hready⟩ := step_keepsConfiguration h
  obtain ⟨hct, hm⟩ := hready hc hreset
  have hconserves := step_conserves hs hreset h
  have hstream : s.deliveredNow ++ t.liveBytes = s.liveBytes ++ s.acceptedNow := hconserves.stream
  have hlength := congrArg List.length hstream
  rw [hinp, List.append_nil, List.length_append, State.length_liveBytes hc, State.length_liveBytes hct] at hlength
  have hsum := (hs.inRange hc).dist_add_free
  have hsum' := (hconserves.inv.inRange hct).dist_add_free
  rw [State.cap_congr htotal hm] at hsum'
  omega

/-- Settles O33: the span holds free cells only, so it meets no read span; a step that leaves it open is no reset and accepts
nothing. -/
theorem writeSpanIsExclusive : Obligations.WriteSpanIsExclusive := by
  intro s t hs hc hopen hstep
  have hr := hs.inRange hc
  obtain ⟨hbytes, hspan⟩ := step_leavesWriteSpan hr hc hopen hstep
  refine ⟨fun p hlow hhigh => ?_, fun hopen' => ?_⟩
  · have hin := State.inWriteSpan_iff.2 ⟨hc, hopen, hlow, hhigh⟩
    exact ⟨fun hother => hbytes hother p hin, hr.not_inReadSpan_of_inWriteSpan hin⟩
  · obtain ⟨hwrite, hlen, hinp⟩ := hspan hopen'
    have hreset : ∀ rest, s.requests ≠ .reset :: rest := fun rest hq => by
      obtain rfl := Host.Outcome.next.inj (hstep.symm.trans (step_of_reset hq))
      exact absurd hopen' nofun
    exact ⟨hwrite, hlen, free_le_of_accepts_nothing hs hc hreset hinp hstep⟩

/-! ### The whole head

Between two spans every head byte equals its mirror byte; `HeadMirrored` says the same outside an outstanding one. -/

/-- Every head byte equals its mirror byte. -/
abbrev State.WholeHeadMirrored (s : State) : Prop := ∀ i ≤ s.bl, s.byteAt (i + s.cap) = s.byteAt i

theorem State.WholeHeadMirrored.headMirrored (h : s.WholeHeadMirrored) : s.HeadMirrored := fun _ i hi _ => h i hi

theorem State.HeadMirrored.whole (h : s.HeadMirrored) (hc : s.configured = true) (hclosed : s.wsOpen = false) :
    s.WholeHeadMirrored :=
  fun i hi => h hc i hi fun hopen => absurd (hopen.symm.trans hclosed) nofun

/-- A command without a rule for the write side keeps the equality (10_state R33(b)). -/
theorem KeepsWriteSide.headMirrored (h : KeepsWriteSide s t) (hcap : t.cap = s.cap) (hbl : t.bl = s.bl)
    (hc : s.configured = true) (hs : s.HeadMirrored) : t.HeadMirrored := by
  have hw : t.w = s.w := congrArg BitVec.toNat h.writeIndex
  rw [State.HeadMirrored, h.byteAt, h.wsOpen, h.wsLen, hcap, hbl, hw]
  exact fun _ => hs hc

/-- A mirrored store at a real index writes a head byte and its mirror byte alike (41_byte_ops R121). -/
theorem storeMirrored_wholeHeadMirrored {k : Nat} {b : Byte} (hbl : s.bl < s.cap) (hk : k < s.cap)
    (hs : s.WholeHeadMirrored) (h : storeMirrored s k b = .ok u) : u.WholeHeadMirrored := by
  obtain ⟨so, -, hbytes⟩ := storeMirrored_spec h
  rw [State.WholeHeadMirrored, so.bl, so.cap]
  intro i hi
  rw [hbytes, hbytes]
  by_cases heq : i = k
  · rw [if_pos (.inr ⟨by omega, by omega⟩), if_pos (.inl heq)]
  · rw [if_neg (by omega), if_neg (by omega), hs i hi]

theorem storeRun_wholeHeadMirrored {base j : Nat} {data : List Byte} (hbl : s.bl < s.cap) (hbase : base ≤ s.cap - 1)
    (hfit : j + data.length ≤ s.cap) (hs : s.WholeHeadMirrored) (h : storeRun base data j s = .ok u) :
    u.WholeHeadMirrored := by
  induction data generalizing s j with
  | nil => cases h; exact hs
  | cons b rest ih =>
    rw [List.length_cons] at hfit
    simp only [storeRun] at h
    split at h
    · cases h
    · next s1 hstore =>
      have so := (storeMirrored_spec hstore).1
      have hlt : advIndex s.cap base j < s.cap := advIndex_lt (by omega) hbase (by omega)
      exact ih (by rw [so.bl, so.cap]; exact hbl) (by rw [so.cap]; exact hbase) (by rw [so.cap]; omega)
        (storeMirrored_wholeHeadMirrored hbl hlt hs hstore) h

theorem State.InRange.bl_lt_cap (h : s.InRange) : s.bl < s.cap := by
  have hpos := h.m_pos
  have hle := h.m_le_cap
  have hbl : s.bl = s.m - 1 := rfl
  omega

/-- Outside the images of the committed bytes the copies of COMMITW leave head and mirror region as they are, and the images of
head bytes they make equal (43_write_span R150). -/
theorem commitCopies_wholeHeadMirrored (hr : s.InRange) (hc : s.configured = true) (hopen : s.wsOpen = true)
    (hs : s.HeadMirrored) (h : commitCopies s.wsLen.toNat s = .ok u) : u.WholeHeadMirrored := by
  obtain ⟨so, hbytes⟩ := commitCopies_spec h
  obtain ⟨-, hspan, -⟩ := State.inRange_iff.1 hr
  obtain ⟨-, hfit, hend, -⟩ := hspan.2 hopen
  have hsum := hr.cap_add_m
  have hm := hr.m_le_cap
  have hw := hr.write_le
  have hbl := hr.bl_lt_cap
  rw [State.WholeHeadMirrored, so.bl, so.cap]
  intro i hi
  by_cases himage : ∃ j < s.wsLen.toNat, advIndex s.cap s.w j = i
  · obtain ⟨j, hj, rfl⟩ := himage
    obtain ⟨hbyte, hmirror⟩ := commitCopies_stored hr hopen le_rfl h hj
    rw [hmirror hi, hbyte]
  · have hout : ∀ j < s.wsLen.toNat, advIndex s.cap s.w j ≠ i := fun j hj heq => himage ⟨j, hj, heq⟩
    have hreal : ¬ (s.w ≤ i ∧ i < s.w + s.wsLen.toNat) := fun hin => by
      refine hout (i - s.w) (by omega) ?_
      rw [advIndex, if_pos (by omega)]
      omega
    have hspilled : ¬ i + s.cap < s.w + s.wsLen.toNat := fun hin => by
      refine hout (i + s.cap - s.w) (by omega) ?_
      rw [advIndex, if_neg (by omega)]
      omega
    rw [hbytes hr hopen le_rfl, hbytes hr hopen le_rfl, if_neg (by omega), if_neg (by omega), if_neg (by omega),
      if_neg (by omega)]
    exact hs hc i hi fun _ => hout

/-- A response word and `err` are no part of the head. -/
theorem State.HeadMirrored.faultRespond_or_respond {c : Prop} [Decidable c] {f : ErrorCode} {faulty answered : State}
    {ptr val ptr' val' : Index} (hfaulty : faulty.HeadMirrored) (hanswered : answered.HeadMirrored) :
    State.HeadMirrored (if c then faultRespond f faulty ptr val else respond answered ptr' val') := by
  split
  · exact hfaulty
  · exact hanswered

/-- ALLOCW excepts the images of its span from an equality that held of the whole head. -/
theorem execAllocw_headMirrored {maxLen : Index} (hc : s.configured = true) (hs : s.HeadMirrored)
    (h : execAllocw maxLen s = .next t) : t.HeadMirrored := by
  rcases execAllocw_next h with rfl | ⟨-, hidle, rfl⟩
  · exact hs
  · have hopened : (s.openWrite (s.writeGrant maxLen)).WholeHeadMirrored := hs.whole hc hidle
    exact .faultRespond_or_respond hs hopened.headMirrored

section Commands

variable (hr : s.InRange) (hc : s.configured = true) (hs : s.HeadMirrored)
include hr hc hs

theorem execPush_headMirrored {v : Byte} (h : execPush v s = .next t) : t.HeadMirrored := by
  rcases execPush_next h with rfl | ⟨-, hidle, u, hstore, rfl⟩
  · exact hs
  · have hbl := hr.bl_lt_cap
    have hw := hr.write_le
    have hu := storeMirrored_wholeHeadMirrored hbl (by omega) (hs.whole hc hidle) hstore
    have hmoved : (u.setWrite (nextIndex u.cap u.w)).WholeHeadMirrored := hu
    exact .faultRespond_or_respond hu.headMirrored hmoved.headMirrored

theorem execBulkw_headMirrored {len : Index} {data : List Byte} (h : execBulkw len data s = .next t) : t.HeadMirrored := by
  rcases execBulkw_next h with rfl | ⟨-, hidle, u, hstore, rfl⟩
  · exact hs
  · have hbl := hr.bl_lt_cap
    have hsum := hr.dist_add_free
    have hfit : 0 + (data.take (s.bulkCount len)).length ≤ s.cap := by rw [List.length_take, State.bulkCount]; omega
    have hu := storeRun_wholeHeadMirrored hbl hr.write_le hfit (hs.whole hc hidle) hstore
    have hmoved : (u.setWrite (advIndex u.cap u.w (s.bulkCount len))).WholeHeadMirrored := hu
    exact .faultRespond_or_respond hmoved.headMirrored hmoved.headMirrored

theorem execCommitw_headMirrored {len : Index} (hwhole : s.wsLen.toNat ≤ len.toNat) (h : execCommitw len s = .next t) :
    t.HeadMirrored := by
  rcases execCommitw_next h with rfl | ⟨-, hopen, hlen, u, hcopies, rfl⟩
  · exact hs
  · rw [Nat.le_antisymm hlen hwhole] at hcopies ⊢
    have hu := commitCopies_wholeHeadMirrored hr hc hopen hs hcopies
    have hmoved : (commitwResult s.wsLen.toNat u).WholeHeadMirrored := hu
    exact hmoved.headMirrored

/-- Every command but a COMMITW of less than the whole span keeps the equality (10_state R33(b)). -/
theorem exec_headMirrored (hwhole : ∀ len, i = .commitw len → s.wsLen.toNat ≤ len.toNat) (h : exec i s = .next t) :
    t.HeadMirrored := by
  cases i with
  | init m0 =>
    obtain rfl := Host.Outcome.next.inj (h.symm.trans (execInit_of_configured hc))
    exact hs
  | push v => exact execPush_headMirrored hr hc hs h
  | bulkw len data => exact execBulkw_headMirrored hr hc hs h
  | allocw maxLen => exact execAllocw_headMirrored hc hs h
  | commitw len => exact execCommitw_headMirrored hr hc hs (hwhole len rfl) h
  | _ =>
    have hkept := exec_keepsWriteSide id h
    obtain ⟨u, word, hu, rfl⟩ := exec_answers h
    obtain ⟨-, hm⟩ := hu.ready hc
    exact hkept.headMirrored (State.cap_congr hu.totalSize hm) (State.bl_congr hm) hc hs

/-- An accepted SPAN_WR writes an image of the span, or the mirror cell of one (20_memory R61). -/
theorem spanWrite_headMirrored {p : Index} {b : Byte} (h : spanWrite p b s = .next t) : t.HeadMirrored := by
  rcases spanWrite_next h with ⟨hin, -, rfl⟩ | ⟨-, rfl⟩
  · obtain ⟨-, hopen, hlow, hhigh⟩ := State.inWriteSpan_iff.1 hin
    obtain ⟨-, hspan, -⟩ := State.inRange_iff.1 hr
    obtain ⟨-, hfit, -⟩ := hspan.2 hopen
    have hplace := add_eq_advIndex_or (i := s.w) (n := p.toNat - s.w) hr.cap_pos
    have hlt := hr.advIndex_write_lt (k := p.toNat - s.w) (by omega)
    have hbl := hr.bl_lt_cap
    intro _ i (hi : i ≤ s.bl) (himage : s.wsOpen = true → ∀ j < s.wsLen.toNat, advIndex s.cap s.w j ≠ i)
    have hne := himage hopen (p.toNat - s.w) (by omega)
    change (s.setByte p.toNat b).byteAt (i + s.cap) = (s.setByte p.toNat b).byteAt i
    rw [State.setByte_byteAt, State.setByte_byteAt, if_neg (by omega), if_neg (by omega)]
    exact hs hc i hi himage
  · exact hs

end Commands

/-- Settles O44: the stores write head and mirror cell alike, SPAN_WR stays inside its span, and a span committed whole is made
equal before it closes. -/
theorem stepKeepsWholeHeadMirror : Obligations.StepKeepsWholeHeadMirror := by
  intro s t hinv hc hs hstep hwhole
  have hr := hinv.inRange hc
  rcases step_next hstep with ⟨-, rfl⟩ | ⟨word, payload, rest, i, hq, hdec, hexec⟩ | ⟨word, payload, rest, e, -, -, rfl⟩ |
    ⟨p, b, rest, -, hwrite⟩ | ⟨p, rest, -, hread⟩ | ⟨rest, -, rfl⟩
  · exact hs
  · refine exec_headMirrored (s := { s with requests := rest }) hr hc hs (fun len hi => hwhole len ?_) hexec
    rw [State.nextCommand_of_decode hq hdec, hi]
  · exact hs
  · exact spanWrite_headMirrored (s := { s with requests := rest }) hr hc hs hwrite
  · rcases spanRead_next hread with ⟨-, -, rfl⟩ | ⟨-, rfl⟩ <;> exact hs
  · exact nofun

end Sys2Proof.Machine
end

section
/-! SUPPORT. The fault that each command raises (60_exceptions R196, R197), and that `err` influences no command but through the
ERR field and GETERR's answer (10_state R25). -/

namespace Sys2Proof.Machine

variable {s t u : State} {i : Instr} {o o' : Host.Outcome State Fault Refusal} {ptr val : Index}

/-! ### A command executed by its rule, with its fault -/

/-- `AnswersOk` with the FAULT field: the command answers `f` there, and a fault is what `err` then holds (60_exceptions R197). -/
def State.AnswersFault (s : State) (o : Host.Outcome State Fault Refusal) (f : ErrorCode) : Prop :=
  ∃ (t : State) (ptr val : Index), o = .next t ∧
    t.responses = s.responses ++ [packResponse .ok f t.err ptr val] ∧ (f ≠ .none → t.err = f)

theorem State.AnswersFault.of_respond (h : o = .next (respond u ptr val)) (hu : u.responses = s.responses) :
    s.AnswersFault o .none :=
  ⟨respond u ptr val, ptr, val, h, by rw [respond, State.emit_responses, State.emit_err, hu], fun hf => absurd rfl hf⟩

theorem State.AnswersFault.of_faultRespond {f : ErrorCode} (h : o = .next (faultRespond f u ptr val))
    (hu : u.responses = s.responses) : s.AnswersFault o f :=
  ⟨faultRespond f u ptr val, ptr, val, h, by
    rw [faultRespond, State.emit_responses, State.emit_err, State.raiseFault_responses, State.raiseFault_err, hu], fun _ => rfl⟩

/-- The table's condition `d` chooses the ending of a command that can raise `f`. -/
theorem State.AnswersFault.of_faultRespond_or_respond {c d : Prop} [Decidable c] [Decidable d] {f : ErrorCode}
    {faulty answered : State} {ptr' val' : Index} (hcd : c ↔ d)
    (h : o = .next (if c then faultRespond f faulty ptr val else respond answered ptr' val'))
    (hfaulty : faulty.responses = s.responses) (hanswered : answered.responses = s.responses) :
    s.AnswersFault o (if d then f else .none) := by
  by_cases hd : d
  · rw [if_pos (hcd.2 hd)] at h
    rw [if_pos hd]
    exact .of_faultRespond h hfaulty
  · rw [if_neg (mt hcd.1 hd)] at h
    rw [if_neg hd]
    exact .of_respond h hanswered

section Faults

variable {len maxLen : Index} (hc : s.configured = true)
include hc

theorem execPush_answersFault (hr : s.InRange) (v : Byte) (hidle : s.wsOpen = false) :
    s.AnswersFault (execPush v s) (if nextIndex s.cap s.w = s.r then .overflow else .none) := by
  obtain ⟨u, hstore⟩ := storeMirrored_ok (b := v) (hr.storable hr.write_le)
  have so := (storeMirrored_spec hstore).1
  exact .of_faultRespond_or_respond beq_iff_eq (execPush_of_stored hc hidle hstore) so.responses so.responses

theorem execBulkw_answersFault (hr : s.InRange) (data : List Byte) (hidle : s.wsOpen = false) :
    s.AnswersFault (execBulkw len data s) (if len.toNat > s.free then .overflow else .none) := by
  have hfit : (data.take (s.bulkCount len)).length ≤ s.free := (List.length_take_le _ _).trans (Nat.min_le_right _ _)
  obtain ⟨u, hrun⟩ := hr.exists_storeRun hfit
  have so := (storeRun_frame hrun).1
  exact .of_faultRespond_or_respond decide_eq_true_iff (execBulkw_of_stored hc hidle hrun) so.responses so.responses

theorem execAllocw_answersFault (hr : s.InRange) (hidle : s.wsOpen = false) :
    s.AnswersFault (execAllocw maxLen s) (if s.free = 0 ∨ maxLen = 0 then .overflow else .none) :=
  .of_faultRespond_or_respond (beq_iff_eq.trans hr.writeGrant_eq_zero_iff) (execAllocw_of_closed hc hidle) rfl rfl

theorem execPop_answersFault (hr : s.InRange) (hidle : s.rsOpen = false) :
    s.AnswersFault (execPop s) (if s.r = s.w then .underflow else .none) :=
  .of_faultRespond_or_respond State.isEmpty_iff (execPop_of_idle hc hidle hr.read_lt_total) rfl rfl

theorem execAllocr_answersFault (hidle : s.rsOpen = false) :
    s.AnswersFault (execAllocr maxLen s) (if s.r = s.w then .underflow else .none) :=
  .of_faultRespond_or_respond State.isEmpty_iff (execAllocr_of_closed hc hidle) (State.grantRead_responses _)
    (State.grantRead_responses _)

theorem execCommitw_answersFault (hr : s.InRange) (hopen : s.wsOpen = true) (hfit : len.toNat ≤ s.wsLen.toNat) :
    s.AnswersFault (execCommitw len s) .none := by
  obtain ⟨u, hcopies⟩ := commitCopies_ok hr hopen hfit
  exact .of_respond (execCommitw_of_copied hc hopen hfit hcopies) (commitCopies_spec hcopies).1.responses

end Faults

/-- Settles O50: behind its span condition each command's ending is chosen by its row of the fault table. -/
theorem faultsAreExactlyTheTable : Obligations.FaultsAreExactlyTheTable := by
  intro i s hc hr hwspan hrspan hcommitw hcommitr hinit
  have hwidle : (i.opcode = 0x2 ∨ i.opcode = 0x4 ∨ i.opcode = 0x5) → s.wsOpen = false := fun hopc =>
    Bool.eq_false_iff.2 fun hopen => by have := hwspan hopen; tauto
  have hridle : (i.opcode = 0x3 ∨ i.opcode = 0x7) → s.rsOpen = false := fun hopc =>
    Bool.eq_false_iff.2 fun hopen => by have := hrspan hopen; tauto
  cases i with
  | init m0 => exact absurd rfl (hinit m0)
  | push v => exact execPush_answersFault hc hr v (hwidle (.inl rfl))
  | pop => exact execPop_answersFault hc hr (hridle (.inl rfl))
  | bulkw len data => exact execBulkw_answersFault hc hr data (hwidle (.inr (.inl rfl)))
  | allocw maxLen => exact execAllocw_answersFault hc hr (hwidle (.inr (.inr rfl)))
  | commitw len =>
    obtain ⟨hopen, hfit⟩ := hcommitw len rfl
    exact execCommitw_answersFault hc hr hopen hfit
  | allocr maxLen => exact execAllocr_answersFault hc (hridle (.inr rfl))
  | commitr len =>
    obtain ⟨hopen, hfit⟩ := hcommitr len rfl
    exact State.AnswersFault.of_respond (execCommitr_of_fits hc hopen hfit) rfl
  | length | hasdata | geterr | clrerr => exact State.AnswersFault.of_respond (requireConfigured_eq_body hc) rfl

/-! ### Two runs that differ in `err` only -/

/-- `t` and `t'` are what a command `i` makes of `s` and of `s` with `err` at `e`: they differ in `err` and in their response word,
and there as 10_state R25 allows. -/
structure SameButErr (i : Instr) (s : State) (e : ErrorCode) (t t' : State) : Prop where
  rest : { t' with err := t.err, responses := t.responses } = t
  err : t'.err = t.err ∨ (t.err = s.err ∧ t'.err = e)
  words : ∃ (st : Status) (f : ErrorCode) (ptr val val' : Index),
    t.responses = s.responses ++ [packResponse st f t.err ptr val] ∧
    t'.responses = s.responses ++ [packResponse st f t'.err ptr val'] ∧
    (i ≠ .geterr ∨ s.configured = false → val' = val)

/-- The outcome `o` of `i` at `s`, if it is a next state, has its like in the outcome `o'` at `s` with `err` at `e`. -/
def Indifferent (i : Instr) (s : State) (e : ErrorCode) (o o' : Host.Outcome State Fault Refusal) : Prop :=
  ∀ t, o = .next t → ∃ t', o' = .next t' ∧ SameButErr i s e t t'

variable {e f : ErrorCode}

theorem SameButErr.indifferent {t' : State} (h : SameButErr i s e t t') : Indifferent i s e (.next t) (.next t') := by
  rintro _ ⟨⟩
  exact ⟨t', rfl, h⟩

/-! ### How a command ends -/

/-- A response word that carries `err` and was made without looking at it. -/
theorem SameButErr.emit {st : Status} (hresp : u.responses = s.responses) (herr : u.err = s.err) :
    SameButErr i s e (u.emit (packResponse st .none u.err ptr val))
      ((u.raiseFault e).emit (packResponse st .none e ptr val)) where
  rest := rfl
  err := .inr ⟨herr, rfl⟩
  words := ⟨st, .none, ptr, val, val, congrArg (· ++ _) hresp, congrArg (· ++ _) hresp, fun _ => rfl⟩

theorem SameButErr.refuse (st : Status) : SameButErr i s e (refuse st s) (Machine.refuse st (s.raiseFault e)) := .emit rfl rfl

theorem SameButErr.respond (hresp : u.responses = s.responses) (herr : u.err = s.err) :
    SameButErr i s e (respond u ptr val) (Machine.respond (u.raiseFault e) ptr val) := .emit hresp herr

/-- A command that writes `err` leaves no trace of what it held. -/
theorem SameButErr.faultRespond (hresp : u.responses = s.responses) :
    SameButErr i s e (faultRespond f u ptr val) (Machine.faultRespond f (u.raiseFault e) ptr val) where
  rest := rfl
  err := .inl rfl
  words := ⟨.ok, f, ptr, val, val, congrArg (· ++ _) hresp, congrArg (· ++ _) hresp, fun _ => rfl⟩

theorem SameButErr.respond_same (hresp : u.responses = s.responses) :
    SameButErr i s e (Machine.respond u ptr val) (Machine.respond u ptr val) where
  rest := rfl
  err := .inl rfl
  words := ⟨.ok, .none, ptr, val, val, congrArg (· ++ _) hresp, congrArg (· ++ _) hresp, fun _ => rfl⟩

theorem SameButErr.faultRespond_or_respond {c : Prop} [Decidable c] {faulty answered : State} {ptr' val' : Index}
    (hfaulty : faulty.responses = s.responses) (hanswered : answered.responses = s.responses)
    (herr : answered.err = s.err) :
    SameButErr i s e (if c then Machine.faultRespond f faulty ptr val else Machine.respond answered ptr' val')
      (if c then Machine.faultRespond f (faulty.raiseFault e) ptr val
        else Machine.respond (answered.raiseFault e) ptr' val') := by
  split
  · exact .faultRespond hfaulty
  · exact .respond hanswered herr

/-! ### The checks in front of a command's rule: none looks at `err` -/

theorem Indifferent.requireConfigured (h : s.configured = true → Indifferent i s e o o') :
    Indifferent i s e (requireConfigured s o) (Machine.requireConfigured (s.raiseFault e) o') := by
  unfold Machine.requireConfigured
  rw [State.raiseFault_configured]
  split
  · next hc => exact h hc
  · exact (SameButErr.refuse _).indifferent

theorem Indifferent.refuseWhen {busy : Bool} (h : Indifferent i s e o o') :
    Indifferent i s e (refuseWhen busy s o) (Machine.refuseWhen busy (s.raiseFault e) o') := by
  unfold Machine.refuseWhen
  split
  · exact (SameButErr.refuse _).indifferent
  · exact h

/-! ### The commands

The storage accesses of PUSH, BULKW and COMMITW succeed whatever `err` holds, and `err` goes through them unchanged. -/

theorem execInit_indifferent (m0 : Index) (s : State) (e : ErrorCode) :
    Indifferent (.init m0) s e (execInit m0 s) (execInit m0 (s.raiseFault e)) := by
  refine SameButErr.indifferent ?_
  have hbad : (s.raiseFault e).badMirrorSize m0 = s.badMirrorSize m0 := rfl
  unfold initResult
  rw [State.raiseFault_configured, hbad]
  split
  · exact .refuse _
  · split
    · exact .refuse _
    · exact SameButErr.respond_same (u := s.construct m0) rfl

theorem execPush_indifferent (v : Byte) (s : State) (e : ErrorCode) :
    Indifferent (.push v) s e (execPush v s) (execPush v (s.raiseFault e)) := by
  refine .requireConfigured fun _ => .refuseWhen ?_
  cases hstore : storeMirrored s s.w v with
  | error r => exact nofun
  | ok u =>
    have so := (storeMirrored_spec hstore).1
    rw [State.raiseFault_w, storeMirrored_raiseFault e hstore]
    exact SameButErr.indifferent (.faultRespond_or_respond so.responses so.responses so.err)

theorem execBulkw_indifferent (len : Index) (data : List Byte) (s : State) (e : ErrorCode) :
    Indifferent (.bulkw len data) s e (execBulkw len data s) (execBulkw len data (s.raiseFault e)) := by
  have hcount : (s.raiseFault e).bulkCount len = s.bulkCount len := rfl
  refine .requireConfigured fun _ => .refuseWhen ?_
  cases hrun : storeRun s.w (data.take (s.bulkCount len)) 0 s with
  | error r => exact nofun
  | ok u =>
    have so := (storeRun_frame hrun).1
    rw [State.raiseFault_w, hcount, storeRun_raiseFault e hrun]
    exact SameButErr.indifferent (.faultRespond_or_respond so.responses so.responses so.err)

theorem execCommitw_indifferent (len : Index) (s : State) (e : ErrorCode) :
    Indifferent (.commitw len) s e (execCommitw len s) (execCommitw len (s.raiseFault e)) := by
  refine .requireConfigured fun _ => .refuseWhen (.refuseWhen ?_)
  cases hcopies : commitCopies len.toNat s with
  | error r => exact nofun
  | ok u =>
    have so := (commitCopies_spec hcopies).1
    rw [commitCopies_raiseFault e hcopies]
    exact SameButErr.indifferent (.respond so.responses so.err)

theorem execPop_indifferent (s : State) (e : ErrorCode) : Indifferent .pop s e (execPop s) (execPop (s.raiseFault e)) := by
  refine .requireConfigured fun _ => .refuseWhen ?_
  rw [State.raiseFault_r, memRead_raiseFault]
  split
  · exact nofun
  · exact SameButErr.indifferent (.faultRespond_or_respond rfl rfl rfl)

theorem execAllocw_indifferent (maxLen : Index) (s : State) (e : ErrorCode) :
    Indifferent (.allocw maxLen) s e (execAllocw maxLen s) (execAllocw maxLen (s.raiseFault e)) :=
  .requireConfigured fun _ => .refuseWhen (SameButErr.indifferent (.faultRespond_or_respond rfl rfl rfl))

theorem State.raiseFault_grantRead (g : Nat) : (s.raiseFault e).grantRead g = (s.grantRead g).raiseFault e := by
  unfold State.grantRead
  split <;> rfl

theorem execAllocr_indifferent (maxLen : Index) (s : State) (e : ErrorCode) :
    Indifferent (.allocr maxLen) s e (execAllocr maxLen s) (execAllocr maxLen (s.raiseFault e)) := by
  refine .requireConfigured fun _ => .refuseWhen (SameButErr.indifferent ?_)
  unfold allocrResult
  dsimp only
  rw [State.raiseFault_grantRead]
  exact .faultRespond_or_respond (State.grantRead_responses _) (State.grantRead_responses _) (State.grantRead_err _)

/-- The one command whose answer is `err` itself (45_status_queries R185). -/
theorem execGeterr_indifferent (s : State) (e : ErrorCode) :
    Indifferent .geterr s e (execGeterr s) (execGeterr (s.raiseFault e)) :=
  .requireConfigured fun hc => SameButErr.indifferent
    { rest := rfl
      err := .inr ⟨rfl, rfl⟩
      words := ⟨.ok, .none, 0, _, _, rfl, rfl, fun h => absurd hc (by simpa using h)⟩ }

/-- No command looks at `err`, GETERR apart (10_state R25). -/
theorem exec_indifferent (i : Instr) (s : State) (e : ErrorCode) : Indifferent i s e (exec i s) (exec i (s.raiseFault e)) := by
  cases i with
  | init m0 => exact execInit_indifferent m0 s e
  | push v => exact execPush_indifferent v s e
  | pop => exact execPop_indifferent s e
  | bulkw len data => exact execBulkw_indifferent len data s e
  | allocw maxLen => exact execAllocw_indifferent maxLen s e
  | commitw len => exact execCommitw_indifferent len s e
  | allocr maxLen => exact execAllocr_indifferent maxLen s e
  | commitr len =>
    exact .requireConfigured fun _ => .refuseWhen (.refuseWhen (SameButErr.indifferent (.respond rfl rfl)))
  | length => exact .requireConfigured fun _ => SameButErr.indifferent (.respond rfl rfl)
  | hasdata => exact .requireConfigured fun _ => SameButErr.indifferent (.respond rfl rfl)
  | geterr => exact execGeterr_indifferent s e
  | clrerr => exact .requireConfigured fun _ => SameButErr.indifferent (.respond_same rfl)

/-- Settles O51: the second state is the first with `err` raised to `e`. -/
theorem stickyErrorInfluencesNoCommand : Obligations.StickyErrorInfluencesNoCommand := by
  intro i s t e hexec
  obtain ⟨t', hexec', hrest, herr, hwords⟩ := exec_indifferent i s e t hexec
  exact ⟨t', hexec', hrest, herr, hwords⟩

end Sys2Proof.Machine
end
